-- ==== Sys2Proof/Word.lean ====
section
/-! DEFINITION. The words of the 8440: bytes of frames and records, 16-bit fields (segment numbers,
coil numbers, checks) and the 32-bit positions of the length counts (spec 00 R1, 12). -/

namespace Sys2Proof

/-- One byte of a frame or record. -/
abbrev Byte := BitVec 8

/-- A 16-bit field: a segment or coil number modulo 2^16, or a check. -/
abbrev Half := BitVec 16

/-- A position along the strip: the ENTRY and EXIT counts, modulo 2^32. -/
abbrev Pos := BitVec 32

end Sys2Proof
end

