-- ==== Sys2Proof/Syntax.lean ====
section
/-! DEFINITION. The commands of the 8440: one constructor of `Instr` for each row of
spec/opcode_table.json, with the row's operands. A command is one whole and indivisible step
(spec 95). The header and payload fields stand as they were carried, unjudged. -/

namespace Sys2Proof

/-- The two reset pins (R188). -/
inductive ResetPin where
  | porst | hrst
deriving DecidableEq, Repr

/-- Operator side (OS) and drive side (DS) of the stand. -/
inductive Side where
  | operator | drive
deriving DecidableEq, Repr

/-- The two length encoders (R74). -/
inductive Encoder where
  | entry | exit
deriving DecidableEq, Repr

/-- The two configured neighbours (R35). -/
inductive Neighbour where
  | upstream | downstream
deriving DecidableEq, Repr

/-- The conditions that may stand after the entry to QUIET from STARTING (R192). -/
inductive Standing where
  | load
  | servo
  | line (k : Fin 4)
  | position (s : Side)
  | loopSensedOpen
deriving DecidableEq, Repr

/-- What a memory operation delivers: what the parameter memory holds by the model's own record of
it, or bytes that the external memory holds by now, which the record then takes over (log 9). -/
inductive MemRead where
  | stored
  | delivered (bytes : List Byte)
deriving DecidableEq, Repr

/-- The common fields of a frame that a receiving block is handed (R11), as carried. -/
structure Header where
  source : Byte
  dest   : Byte
  tag    : Byte
deriving DecidableEq, Repr

/-- The fields of a CLAIM that carries this node's number as source (R7). -/
structure ClaimHeader where
  dest       : Byte
  tag        : Byte
  hop        : Byte
  objection  : Bool
  standIndex : Byte
deriving DecidableEq, Repr

/-- SEG payload, Table 12-3. -/
structure SegPayload where
  number      : Half
  coil        : Half
  deviation   : Half
  sampleCount : Byte
  flags       : Byte
  remaining   : Half
  scheduleId  : Byte
  standIndex  : Byte
deriving DecidableEq, Repr

/-- MARK payload, Table 12-3. -/
structure MarkPayload where
  number     : Half
  length     : Half
  interval   : Byte
  standIndex : Byte
deriving DecidableEq, Repr

/-- BEACON payload, Table 12-3. -/
structure BeaconPayload where
  standIndex    : Byte
  standState    : Byte
  flags         : Byte
  scheduleId    : Byte
  lastClosed    : Half
  originStation : Byte
deriving DecidableEq, Repr

/-- TRIP payload, Table 12-3. -/
structure TripPayload where
  station    : Byte
  standIndex : Byte
  causeKind  : Byte
  detail     : Byte
  number     : Half
deriving DecidableEq, Repr

/-- The commands, one for each row of the table of operations and events. -/
inductive Instr where
  | resetAssert (pin : ResetPin)
  | resetEnd (station : BitVec 5) (writeProtect : Bool)
  | configReadEnd (image : MemRead)
  | configReadTimeout
  | standingCondition (k : Standing)
  | frameArrival (bytes : List Byte)
  | ownFrameReturn (tag : Byte)
  | claimOwnSource (h : ClaimHeader)
  | transmitEnd
  | returnTimeout
  | carrierLock
  | carrierLoss
  | beaconReceived (h : Header) (p : BeaconPayload)
  | beaconTimerExpiry
  | seekTimerExpiry
  | livenessTimerExpiry (which : Neighbour)
  | ringBreakGraceExpiry
  | objectWrite (h : Header) (index : Byte) (value : List Byte)
  | standCommandPreset (h : Header)
  | standCommandQuiet (h : Header)
  | nextSchedule (h : Header) (id : Byte)
  | slotFree (h : Header) (id : Byte)
  | gapTrim (h : Header) (trim : Half)
  | ffEnable (h : Header) (enable : Byte)
  | monitorEnable (h : Header) (enable : Byte)
  | coefEntryWrite (h : Header) (pclass : Byte) (band : Byte) (ff : Half) (mon : Half)
  | coefEntryRead (h : Header) (pclass : Byte) (band : Byte)
  | tripClearStation (h : Header) (station : Byte)
  | tripClearAll (h : Header)
  | faultCountsClear (h : Header) (code : Byte) (count : Half)
  | faultSummaryClear (h : Header) (value : Byte)
  | nodeReset (h : Header) (value : Byte)
  | schedOpen (h : Header) (id : Byte) (count : Byte)
  | schedSection (h : Header) (id : Byte) (number : Byte) (content : List Byte)
  | schedClose (h : Header) (id : Byte) (check : Half)
  | schedIdleTimeout (slot : Fin 4)
  | segReceived (h : Header) (p : SegPayload)
  | markReceived (h : Header) (p : MarkPayload)
  | tripReceived (h : Header) (p : TripPayload)
  | gaugeSample (thickness : Nat) (good : Bool)
  | measuringChange (level : Bool)
  | sampleTake
  | forceSample (side : Side) (valid : Bool) (force : Nat)
  | positionSample (side : Side) (valid : Bool) (position : Nat)
  | encoderPulse (which : Encoder) (a : Bool) (b : Bool)
  | moveTimerExpiry
  | retractTimerExpiry
  | fillComplete (record : MemRead)
  | coefWriteComplete
  | paramOpTimeout
  | tripLineChange (line : Fin 4) (level : Bool)
  | loopOpen
  | loopClosing
  | servoFlt (asserted : Bool)
deriving DecidableEq, Repr

end Sys2Proof
end

