-- ==== Sys2Proof/Config.lean ====
section
/-! DEFINITION. The free values (opaque constants: values the spec leaves open, log 4, 7, 10, 16,
22) and the configuration of the node: the fields of the configuration image (Table 11-1), which
hold from acceptance to the next reset (R193). -/

namespace Sys2Proof

/-- The force band formed by a force sample in STARTING, where the band edges are not known (R69,
log 7); held among the bands that the total can have. -/
opaque Config.freeBand : Nat → Nat

/-- The tilt mark formed by a position sample in STARTING, where the tilt limit is not known (R72,
log 7); used only for a tilt on which limits within 50..2,000 differ. -/
opaque Config.freeMark : Nat → Bool

/-- A byte of a coefficient record whose write a reset abandoned: "as the memory left it" (R188,
log 10). -/
opaque Config.freeByte : Nat → Nat → Byte

/-- Whether, within a millisecond of the read of the configuration image, the read operation under way
ends and the next one begins (R189, log 28). -/
opaque Config.imageOpEnds : Nat → Bool

/-- Which of several internal events due together is taken next (R192, log 4). -/
opaque Config.freeOrder : Nat → Nat

/-- Whether the reverse recovery of a pulse is handed on before the pulse reaches the Tracking Unit
(R74, R76, log 16). -/
opaque Config.recoveryFirst : Nat → Bool

/-- The two bytes that report a comparison value which no signed 16-bit field holds (R197, log 22). -/
opaque Config.wideValue : Int → Half

/-- The one-byte code of the kind of the operation in service, fill (false) or write (true), in
GAP_STATUS (R157, log 22). -/
opaque Config.opKindCode : Bool → Byte

/-- Four like things, numbered 0 to 3: trip lines, schedule slots. -/
structure Four (α : Type) where
  x0 : α
  x1 : α
  x2 : α
  x3 : α
deriving DecidableEq, Repr

/-- Trip-line senses (spec 09 section 9.1). -/
inductive Sense where
  | rising | falling | high | low
deriving DecidableEq, Repr

/-- The configuration of one trip line (fields 34 to 37). -/
structure LineConfig where
  sense   : Sense
  enabled : Bool
deriving DecidableEq, Repr

/-- The non-fatal route (field 31, R182). -/
inductive Route where
  | hold | trip
deriving DecidableEq, Repr

/-- The report level (field 32, R183). -/
inductive ReportLevel where
  | none | fatal | severe | all
deriving DecidableEq, Repr

/-- A closure (fields 39 to 63, R45). -/
inductive Closure where
  | openTo | quiet | closed
deriving DecidableEq, Repr

/-- The configuration image's values, Table 11-1 fields 2 to 64. -/
structure NodeConfig where
  standIndex        : Nat
  upstream          : Nat
  downstream        : Nat
  segLength         : Nat  -- L
  biteDistance      : Nat  -- D
  gaugeOffset       : Nat  -- G
  publishLead       : Nat  -- P
  ffLead            : Nat  -- F
  markInterval      : Nat  -- N
  cobbleTolerance   : Nat
  loadOn            : Nat
  loadOff           : Nat
  bandEdges         : List Nat
  tiltLimit         : Nat
  stepThreshold     : Nat
  positionTolerance : Nat
  moveTimeout       : Nat
  retractTimeout    : Nat
  standbyGap        : Nat
  retractGap        : Nat
  beaconInterval    : Nat
  returnTimeout     : Nat  -- 0 is OFF
  ringBreakGrace    : Nat
  route             : Route
  reportLevel       : ReportLevel
  reportBudget      : Nat  -- B
  lines             : Four LineConfig
  authority         : List Nat
  closures          : List Closure
  imageCheck        : Half
deriving DecidableEq, Repr

/-- No configuration accepted yet: the values are unknown and no rule reads them (log 6). -/
def NodeConfig.unset : NodeConfig where
  standIndex := 0
  upstream := 0
  downstream := 0
  segLength := 0
  biteDistance := 0
  gaugeOffset := 0
  publishLead := 0
  ffLead := 0
  markInterval := 0
  cobbleTolerance := 0
  loadOn := 0
  loadOff := 0
  bandEdges := []
  tiltLimit := 0
  stepThreshold := 0
  positionTolerance := 0
  moveTimeout := 0
  retractTimeout := 0
  standbyGap := 0
  retractGap := 0
  beaconInterval := 0
  returnTimeout := 0
  ringBreakGrace := 0
  route := .hold
  reportLevel := .none
  reportBudget := 0
  lines := ⟨⟨.rising, false⟩, ⟨.rising, false⟩, ⟨.rising, false⟩, ⟨.rising, false⟩⟩
  authority := []
  closures := []
  imageCheck := 0

end Sys2Proof
end

