-- ==== Sys2Proof/Machine/State.lean ====
section
/-! DEFINITION. The state of the 8440, plain data: every piece of state the spec gives each of its
eleven blocks (Table 0-1), the parameter memory, the levels of its input lines, and the queue of
commands that wait. INVENTORY.md lists each with its rule and its reset value. -/

namespace Sys2Proof.Machine

/-- The ways a command could stop the machine. There is none: the spec gives every command an effect
in every state (log 24), so this type has no constructor and no meaning answers a fault. -/
inductive Fault where
deriving DecidableEq, Repr

/-- Refusals. -/
inductive Refusal where
  /-- A command that has no meaning in the model yet (safe). No arm of `exec` answers it. -/
  | notModelled (mnemonic : String)
deriving DecidableEq, Repr

/-! ## Names of the spec -/

/-- Frame kinds, Table 1-1. -/
inductive FrameKind where
  | seg | mark | beacon | claim | trip | rdreq | wrreq | reply | sched | fault | echo
deriving DecidableEq, Repr

/-- Stand states, Table 6-1. -/
inductive StandState where
  | starting | quiet | preset | ready | threading | rolling | tailing | tripped | lockout
deriving DecidableEq, Repr

/-- Ring states, Table 2-1. -/
inductive RingState where
  | dark | claiming | seeking | joined | broken | conflict
deriving DecidableEq, Repr

/-- The break record (R37). -/
inductive BreakRecord where
  | none | ringOpen | link
deriving DecidableEq, Repr

/-- Liveness marks (R35). -/
inductive Liveness where
  | unheard | live | lost
deriving DecidableEq, Repr

/-- Hold causes (R116). -/
inductive HoldCause where
  | ring | neighbour | reverse | overload
deriving DecidableEq, Repr

/-- Access classes, Table 3-1. -/
inductive AccessClass where
  | closed | read | readWrite | quietWrite | gated
deriving DecidableEq, Repr

/-- REPLY statuses (R47). -/
inductive Status where
  | done | noObject | access | state | range | busy | aborted | failed
deriving DecidableEq, Repr

/-- Kinds of long request (R51). -/
inductive LongKind where
  | preset | coefWrite | coefRead
deriving DecidableEq, Repr

/-- States of move supervision (spec 08 section 8.4). -/
inductive Supervision where
  | idle | moving | retracting | retracted | retractFailed
deriving DecidableEq, Repr

/-- Fault classes (R178). -/
inductive FaultClass where
  | correctable | nonfatal | fatal
deriving DecidableEq, Repr

/-- The 32 fault codes, Table 10-1, in its order. -/
inductive FaultCode where
  | frameCheck | frameForm | orphanRemoved | passOverrun | ownFrameLost | insertFull
  | claimObjected | stationConflict | ringBreak | ringBreakExpired | neighbourLost
  | sampleOverrun | gaugeWithdrawn | forceSensor | positionSensor | encoderReverse
  | tiltLimit | overload | trackGap | arrivalFull | markGap | cobble | exitTrackFull
  | unexpectedLoad | schedRefused | moveTimeout | retractTimeout | servoFault
  | demandClamped | coefUnusable | paramTimeout | lateApplication
deriving DecidableEq, Repr

/-- Reset causes (R195). -/
inductive ResetCause where
  | powerOn | hard | soft
deriving DecidableEq, Repr

/-- How far start-up has got (R188 to R192). -/
inductive StartPhase where
  | inReset | reading | invalid | running
deriving DecidableEq, Repr

/-! ## Ring Port (spec 01) -/

/-- A frame that passed the checks of R5, with the undefined bits of its marker byte dropped. -/
structure Frame where
  kind      : FrameKind
  source    : Byte
  dest      : Byte
  tag       : Byte
  hop       : Nat
  objection : Bool
  payload   : List Byte
deriving DecidableEq, Repr

/-- A frame offered by a block of the node (R2): no tag yet. `fatal` marks a FAULT frame of class
FATAL (R14). -/
structure OwnFrame where
  kind    : FrameKind
  dest    : Byte
  payload : List Byte
  fatal   : Bool
deriving DecidableEq, Repr

/-- An entry of the outstanding list (R19). `sentAt` is the time its transmission ended, once ended. -/
structure OutEntry where
  tag    : Byte
  kind   : FrameKind
  sentAt : Option Nat
deriving DecidableEq, Repr

/-- The frame on RING_TX, and whether it is an own frame tracked at its selection. -/
structure Sending where
  frame   : Frame
  tracked : Bool
deriving DecidableEq, Repr

/-- The Ring Port. -/
structure RingPort where
  tagCounter     : Byte
  passBuffer     : List Frame
  insertQueue    : List OwnFrame
  tripSlot       : Option OwnFrame
  passRun        : Nat
  outstanding    : List OutEntry
  lossCount      : Nat
  unmatchedCount : Nat
  flushedCount   : Nat
  sending        : Option Sending
deriving DecidableEq, Repr

/-! ## Ring Membership (spec 02) -/

/-- The contents of a BEACON as kept in a neighbour record (R34, R41). -/
structure BeaconInfo where
  standIndex    : Nat
  standState    : Byte
  stripPresent  : Bool
  tripped       : Bool
  hold          : Bool
  scheduleId    : Nat
  lastClosed    : Half
  originStation : Nat
deriving DecidableEq, Repr

/-- A neighbour record (R35, R41). A timer is stopped (none) or has some milliseconds left. -/
structure NeighbourRec where
  mark          : Liveness
  timer         : Option Nat
  heardInSeek   : Bool
  lostCount     : Nat
  recoveryCount : Nat
  lastBeacon    : Option BeaconInfo
deriving DecidableEq, Repr

/-- Ring Membership. -/
structure Membership where
  ring             : RingState
  carrierLocked    : Bool
  carrierLossCount : Nat
  lockOk           : Bool
  claimOk          : Bool
  neighboursOk     : Bool
  ringOpen         : Bool
  breakRecord      : BreakRecord
  claimResends     : Nat
  beaconTimer      : Option Nat
  seekTimer        : Option Nat
  graceTimer       : Option Nat
  upstream         : NeighbourRec
  downstream       : NeighbourRec
deriving DecidableEq, Repr

/-! ## Object Directory (spec 03) -/

/-- A coefficient record's tag (R149). -/
structure CoefTag where
  pclass : Nat
  band   : Nat
deriving DecidableEq, Repr

/-- A request-table entry (R51). `coef` names the record that a coefficient request waits on. -/
structure ReqEntry where
  requester : Byte
  tag       : Byte
  index     : Nat
  kind      : LongKind
  coef      : Option CoefTag
deriving DecidableEq, Repr

/-- The changed flags of the four echo-marked objects (R55). -/
structure ChangedFlags where
  nextSchedule  : Bool
  gapTrim       : Bool
  ffEnable      : Bool
  monitorEnable : Bool
deriving DecidableEq, Repr

/-- The Object Directory's running state. -/
structure Directory where
  table   : List ReqEntry
  changed : ChangedFlags
deriving DecidableEq, Repr

/-! ## Measurement Ports (spec 04) -/

/-- A gauge sample in the FIFO (R64). -/
structure Sample where
  stamp     : Pos
  thickness : Nat
  good      : Bool
deriving DecidableEq, Repr

/-- The value and sensor mark of one side (R67, R71). -/
structure SideValue where
  value : Nat
  valid : Bool
deriving DecidableEq, Repr

/-- The Measurement Ports. `forceTaken` is the model's own: a valid force sample has been taken in
STARTING, so the band waits for the edges (R69, log 7); it is false from acceptance on. -/
structure Meas where
  fifo              : List Sample
  hold              : Bool
  idleDiscards      : Nat
  withdrawnDiscards : Nat
  flushedSamples    : Nat
  forceOS           : SideValue
  forceDS           : SideValue
  loadOn            : Bool
  band              : Nat
  forceTaken        : Bool
  overload          : Bool
  posOS             : SideValue
  posDS             : SideValue
  tiltMark          : Bool
  entryCount        : Pos
  exitCount         : Pos
  entryErrors       : Nat
  exitErrors        : Nat
  exitPeak          : Pos
  reversal          : Option Pos
deriving DecidableEq, Repr

/-! ## Tracking Unit (spec 05) -/

/-- The open gauge segment (R81). -/
structure OpenSegment where
  number    : Half
  index     : Nat
  spanStart : Pos
  coil      : Half
  head      : Bool
  weld      : Bool
  good      : Nat
  sum       : Nat
  suspect   : Nat
deriving DecidableEq, Repr

/-- A record of the exit track (R87). -/
structure ExitRecord where
  number      : Half
  coil        : Half
  deviation   : Option Int
  sampleCount : Nat
  head        : Bool
  weld        : Bool
  tail        : Bool
  offgauge    : Bool
  beyond      : Bool
  scheduleId  : Nat
  spanStart   : Pos
  due         : Pos
deriving DecidableEq, Repr

/-- A weld mark (R88). -/
structure WeldMark where
  at_  : Pos
  coil : Half
deriving DecidableEq, Repr

/-- A record of the arrival queue (R94). -/
structure ArrivalRecord where
  number      : Half
  coil        : Half
  deviation   : Option Int
  sampleCount : Nat
  head        : Bool
  weld        : Bool
  tail        : Bool
  offgauge    : Bool
  beyond      : Bool
  remaining   : Nat
  scheduleId  : Nat
  due         : Pos
deriving DecidableEq, Repr

/-- The counts of R103. -/
structure TrackCounts where
  closed           : Nat
  published        : Nat
  exitDiscarded    : Nat
  publishRefused   : Nat
  stale            : Nat
  suspect          : Nat
  received         : Nat
  applied          : Nat
  arrivalDiscarded : Nat
  trackGaps        : Nat
  duplicates       : Nat
  late             : Nat
  unexpected       : Nat
  foreign          : Nat
  marksReceived    : Nat
  droppedWelds     : Nat
deriving DecidableEq, Repr

/-- The Tracking Unit. -/
structure Tracking where
  nextNumber  : Half
  lastClosed  : Half
  running     : Bool
  origin      : Pos
  openSeg     : Option OpenSegment
  exitTrack   : List ExitRecord
  weldList    : List WeldMark
  entryCoil   : Half
  exitCoil    : Half
  arrival     : List ArrivalRecord
  headWaiting : Bool
  expected    : Option Half
  baseline    : Option (Half × Pos)
  comparison  : Option (Int × Int)
  counts      : TrackCounts
deriving DecidableEq, Repr

/-! ## Stand Sequencer (spec 06) -/

/-- The hold-cause set (R116). -/
structure Holds where
  ring      : Bool
  neighbour : Bool
  reverse   : Bool
  overload  : Bool
deriving DecidableEq, Repr

/-- The Stand Sequencer. -/
structure Sequencer where
  stand       : StandState
  holds       : Holds
  holdCount   : Nat
  tailIgnored : Nat
deriving DecidableEq, Repr

/-! ## Schedule Store (spec 07) -/

/-- A validated schedule record (R121, R122); the profile is a list of offsets and trims. -/
structure Schedule where
  entryTarget    : Nat
  exitTarget     : Nat
  threadGap      : Nat
  rollGap        : Nat
  gapMin         : Nat
  gapMax         : Nat
  forceLimit     : Nat
  offGauge       : Nat
  pclass         : Nat
  ffAllowed      : Bool
  monitorAllowed : Bool
  profile        : List (Nat × Int)
deriving DecidableEq, Repr

/-- What a LOADING slot holds (R123): the sections stand as received, unjudged. -/
structure Loading where
  id       : Nat
  source   : Byte
  declared : Nat
  sections : List (List Byte)
  timer    : Nat
deriving DecidableEq, Repr

/-- A schedule slot (R123). -/
inductive Slot where
  | empty
  | loading (l : Loading)
  | loaded (id : Nat) (r : Schedule)
  | pending (id : Nat) (r : Schedule)
  | active (id : Nat) (r : Schedule)
deriving DecidableEq, Repr

/-- A running profile position (R134). -/
structure ProfilePos where
  weld      : Half
  id        : Nat
  nextEntry : Nat
deriving DecidableEq, Repr

/-- The Schedule Store. -/
structure SchedStore where
  slots          : Four Slot
  profile        : Option ProfilePos
  loadsCompleted : Nat
  loadsFailed    : Nat
  loadTimeouts   : Nat
  coilChanges    : Nat
  flyingChanges  : Nat
deriving DecidableEq, Repr

/-! ## Gap Controller and Parameter Port (spec 08) -/

/-- A coefficient record (R149). -/
structure CoefRecord where
  tag : CoefTag
  ff  : Int
  mon : Nat
deriving DecidableEq, Repr

/-- A set of the coefficient cache: two ways and the MRU mark, which names way 1 when set (R149). -/
structure CacheSet where
  way0 : Option CoefRecord
  way1 : Option CoefRecord
  mru1 : Bool
deriving DecidableEq, Repr

/-- An operation of the parameter request queue (R153). `hasEntry` says that a write's COEF_WRITE
entry stands in the request table; a soft reset takes it away (R54, log 31). -/
inductive ParamOp where
  | fill (tag : CoefTag)
  | write (record : CoefRecord) (hasEntry : Bool)
deriving DecidableEq, Repr

/-- The waiting tag of a deferred application, and whether its fill is still only wanted (R141). -/
structure Waiting where
  tag    : CoefTag
  wanted : Bool
deriving DecidableEq, Repr

/-- The counts of moves (R146, R147). -/
structure MoveCounts where
  started    : Nat
  superseded : Nat
  completed  : Nat
  timedOut   : Nat
  abandoned  : Nat
deriving DecidableEq, Repr

/-- The counts of MONITOR_STATUS (R158). -/
structure CoefCounts where
  hits            : Nat
  misses          : Nat
  fillsInstalled  : Nat
  fillsFailed     : Nat
  holdSkips       : Nat
  missSkips       : Nat
  prefetchSkipped : Nat
deriving DecidableEq, Repr

/-- The Gap Controller. -/
structure GapControl where
  base          : Option Nat
  ff            : Int
  monitor       : Int
  gapTrim       : Int
  profileTrim   : Int
  frozenTrim    : Int
  frozenProfile : Int
  unclamped     : Int
  clampMark     : Bool
  reference     : Nat
  ffEnable      : Bool
  monitorEnable : Bool
  supervision   : Supervision
  target        : Nat
  timer         : Option Nat
  servoEn       : Bool
  moves         : MoveCounts
  cache         : List CacheSet
  queue         : List ParamOp
  opTimer       : Option Nat
  waiting       : Option Waiting
  lastApplied   : Option (Half × Nat)
  lastCoefs     : Option CoefRecord
  counts        : CoefCounts
deriving DecidableEq, Repr

/-! ## Trip Unit (spec 09) -/

/-- A trip line's flag and its start record (spec 09 section 9.1). -/
structure LineState where
  flag     : Bool
  seenRise : Bool
  seenFall : Bool
  seenHigh : Bool
  seenLow  : Bool
deriving DecidableEq, Repr

/-- An origin; the unknown origin has station 0 and every other field 0 (R165). -/
structure Origin where
  station    : Nat
  standIndex : Nat
  causeKind  : Byte
  detail     : Byte
  number     : Half
deriving DecidableEq, Repr

/-- The Trip Unit. -/
structure TripUnit where
  lines         : Four LineState
  active        : Option Origin
  pending       : Option Origin
  dropped       : Nat
  tripEntries   : Nat
  localRepeats  : Nat
  ignoredTrips  : Nat
  clearsTaken   : Nat
  clearsRefused : Nat
  loopOpens     : Nat
deriving DecidableEq, Repr

/-! ## Fault Unit (spec 10) -/

/-- A fault event as carried (R179): its class, stand state and segment number are those of its
raising. `report` is false for an INSERT_FULL raised for a FAULT frame, whose step 4 offers no
frame (R183). -/
structure FaultEvent where
  code   : FaultCode
  cls    : FaultClass
  stand  : StandState
  number : Half
  report : Bool
deriving DecidableEq, Repr

/-- The first-fault record's contents (R181). -/
structure FirstFault where
  code   : FaultCode
  cls    : FaultClass
  stand  : StandState
  number : Half
deriving DecidableEq, Repr

/-- The Fault Unit. `raised` is the model's own: events raised inside a larger event and to be
handled once it is complete (R179, R105); it is empty between steps. -/
structure FaultUnit where
  counters       : List Nat
  first          : Option FirstFault
  budgetCount    : Nat
  budgetExceeded : Bool
  offered        : Nat
  suppressed     : Nat
  raised         : List FaultEvent
deriving DecidableEq, Repr

/-! ## Start-up Control, input levels (spec 11, Table 0-2) -/

/-- The read of the configuration image under way (R189): what is left of the 20 ms of the present
operation, and how many operations have begun. -/
structure ImageRead where
  left  : Nat
  begun : Nat
deriving DecidableEq, Repr

/-- Start-up Control. -/
structure Startup where
  phase      : StartPhase
  porstSeen  : Bool
  cause      : ResetCause
  softResets : Nat
  standing   : List Standing
  imageRead  : Option ImageRead
deriving DecidableEq, Repr

/-- The present levels of the node's input lines: true is asserted, high, or loop current present. -/
structure Pins where
  carrier    : Bool
  measuring  : Bool
  servoFlt   : Bool
  loopClosed : Bool
  lines      : Four Bool
  entryA     : Bool
  entryB     : Bool
  exitA      : Bool
  exitB      : Bool
deriving DecidableEq, Repr

/-- What holds between resets: the straps and the accepted configuration (R189, R193). -/
structure Settings where
  station      : Nat
  writeProtect : Bool
  config       : NodeConfig
deriving DecidableEq, Repr

/-- The running state of the node: its blocks, the levels of its input lines, and the model's clock
and counter of free values. -/
structure Node where
  ring      : RingPort
  memb      : Membership
  dir       : Directory
  meas      : Meas
  track     : Tracking
  seq       : Sequencer
  sched     : SchedStore
  gap       : GapControl
  trip      : TripUnit
  flt       : FaultUnit
  startup   : Startup
  pins      : Pins
  clock     : Nat
  freeIndex : Nat
deriving DecidableEq, Repr

/-- The machine. -/
structure State where
  settings : Settings
  paramMem : List Host.Cell
  node     : Node
  pending  : List Instr
deriving DecidableEq, Repr

/-! ## Values after a power-on or hard reset -/

def RingPort.powerOn : RingPort :=
  { tagCounter := 0, passBuffer := [], insertQueue := [], tripSlot := none, passRun := 0,
    outstanding := [], lossCount := 0, unmatchedCount := 0, flushedCount := 0, sending := none }

def NeighbourRec.powerOn : NeighbourRec :=
  { mark := .unheard, timer := none, heardInSeek := false, lostCount := 0, recoveryCount := 0,
    lastBeacon := none }

def Membership.powerOn : Membership :=
  { ring := .dark, carrierLocked := false, carrierLossCount := 0, lockOk := false,
    claimOk := false, neighboursOk := false, ringOpen := false, breakRecord := .none,
    claimResends := 0, beaconTimer := none, seekTimer := none, graceTimer := none,
    upstream := NeighbourRec.powerOn, downstream := NeighbourRec.powerOn }

/-- No changed flag set (R57). -/
def ChangedFlags.clear : ChangedFlags := ⟨false, false, false, false⟩

def Directory.powerOn : Directory := { table := [], changed := ChangedFlags.clear }

def Meas.powerOn : Meas :=
  { fifo := [], hold := false, idleDiscards := 0, withdrawnDiscards := 0, flushedSamples := 0,
    forceOS := ⟨0, true⟩, forceDS := ⟨0, true⟩, loadOn := false, band := 0, forceTaken := false,
    overload := false,
    posOS := ⟨0, true⟩, posDS := ⟨0, true⟩, tiltMark := false, entryCount := 0, exitCount := 0,
    entryErrors := 0, exitErrors := 0, exitPeak := 0, reversal := none }

/-- Every count of R103 at 0. -/
def TrackCounts.zero : TrackCounts :=
  { closed := 0, published := 0, exitDiscarded := 0, publishRefused := 0, stale := 0, suspect := 0,
    received := 0, applied := 0, arrivalDiscarded := 0, trackGaps := 0, duplicates := 0, late := 0,
    unexpected := 0, foreign := 0, marksReceived := 0, droppedWelds := 0 }

def Tracking.powerOn : Tracking :=
  { nextNumber := 0, lastClosed := 0, running := false, origin := 0, openSeg := none,
    exitTrack := [], weldList := [], entryCoil := 0, exitCoil := 0, arrival := [],
    headWaiting := false, expected := none, baseline := none, comparison := none,
    counts := TrackCounts.zero }

/-- No hold cause set (R116). -/
def Holds.empty : Holds := ⟨false, false, false, false⟩

def Sequencer.powerOn : Sequencer :=
  { stand := .starting, holds := Holds.empty, holdCount := 0, tailIgnored := 0 }

def SchedStore.powerOn : SchedStore :=
  { slots := ⟨.empty, .empty, .empty, .empty⟩, profile := none, loadsCompleted := 0,
    loadsFailed := 0, loadTimeouts := 0, coilChanges := 0, flyingChanges := 0 }

/-- An invalid set whose MRU mark names way 0 (R149). -/
def CacheSet.invalid : CacheSet := ⟨none, none, false⟩

/-- Every way of the eight sets invalid (R149). -/
def invalidCache : List CacheSet := List.replicate 8 CacheSet.invalid

/-- Every count of R158 at 0. -/
def CoefCounts.zero : CoefCounts :=
  { hits := 0, misses := 0, fillsInstalled := 0, fillsFailed := 0, holdSkips := 0, missSkips := 0,
    prefetchSkipped := 0 }

def GapControl.powerOn : GapControl :=
  { base := none, ff := 0, monitor := 0, gapTrim := 0, profileTrim := 0, frozenTrim := 0,
    frozenProfile := 0, unclamped := 0, clampMark := false, reference := 0, ffEnable := false,
    monitorEnable := false, supervision := .idle, target := 0, timer := none, servoEn := false,
    moves := { started := 0, superseded := 0, completed := 0, timedOut := 0, abandoned := 0 },
    cache := invalidCache, queue := [], opTimer := none, waiting := none, lastApplied := none,
    lastCoefs := none, counts := CoefCounts.zero }

/-- A start record begun from the present level at the end of the reset (spec 09 section 9.1). -/
def LineState.begun (level : Bool) : LineState :=
  { flag := false, seenRise := false, seenFall := false, seenHigh := level, seenLow := !level }

/-- Applies `f` to each of four things. -/
def mapFour {α β : Type} (f : α → β) (v : Four α) : Four β := ⟨f v.x0, f v.x1, f v.x2, f v.x3⟩

def TripUnit.powerOn (levels : Four Bool) : TripUnit :=
  { lines := mapFour LineState.begun levels, active := none, pending := none, dropped := 0,
    tripEntries := 0, localRepeats := 0, ignoredTrips := 0, clearsTaken := 0, clearsRefused := 0,
    loopOpens := 0 }

def FaultUnit.powerOn : FaultUnit :=
  { counters := List.replicate 32 0, first := none, budgetCount := 0, budgetExceeded := false,
    offered := 0, suppressed := 0, raised := [] }

/-- The first read operation begins when the strap read ends (R189). -/
def ImageRead.first : ImageRead := { left := 20, begun := 1 }

/-- The node when a reset ends (R188): every block at its power-on values, the input lines at the
levels they have. A carrier already present is reported as a lock at once (R24). -/
def Node.powerOn (pins : Pins) (phase : StartPhase) (porstSeen : Bool) (freeIndex : Nat) : Node :=
  { ring := RingPort.powerOn
    memb := { Membership.powerOn with carrierLocked := pins.carrier }
    dir := Directory.powerOn
    meas := Meas.powerOn
    track := Tracking.powerOn
    seq := Sequencer.powerOn
    sched := SchedStore.powerOn
    gap := GapControl.powerOn
    trip := TripUnit.powerOn pins.lines
    flt := FaultUnit.powerOn
    startup := { phase := phase, porstSeen := porstSeen,
                 cause := if porstSeen then .powerOn else .hard, softResets := 0, standing := [],
                 imageRead := if phase = .reading then some ImageRead.first else none }
    pins := pins
    clock := 0
    freeIndex := freeIndex }

/-- Input levels at `State.reset`: no carrier, lines low, loop open since the node's own switch is
open (log 5). -/
def Pins.initial : Pins :=
  { carrier := false, measuring := false, servoFlt := false, loopClosed := false,
    lines := ⟨false, false, false, false⟩, entryA := false, entryB := false, exitA := false,
    exitB := false }

/-- The machine right after a power-on reset whose straps read station 1, write protect clear, with
the read of the configuration image under way (R188, R189, log 5). -/
def State.reset : State :=
  { settings := { station := 1, writeProtect := false, config := NodeConfig.unset }
    paramMem := []
    node := Node.powerOn Pins.initial .reading true 0
    pending := [] }

end Sys2Proof.Machine
end

