-- ==== Sys2Proof/Machine/Operands.lean ====
section
/-! DEFINITION. Reading and writing what the commands carry: bytes, modular comparison, the check,
frames and payloads, the configuration image, schedule sections and coefficient records, as laid out
in spec 12. -/

namespace Sys2Proof.Machine

/-! ## Modular comparison and saturation (R1) -/

/-- A count "reaches" a position: the difference modulo 2^32 is below 2^31. -/
def reaches (count position : Pos) : Bool := (count - position).toNat < 2 ^ 31

/-- A count has "passed" a position, or a position "lies beyond" another: the difference modulo 2^32
is in 1..2^31 - 1. -/
def passed (count position : Pos) : Bool :=
  0 < (count - position).toNat && (count - position).toNat < 2 ^ 31

/-- A 16-bit saturating counter increased by `k`. -/
def satAdd (n k : Nat) : Nat := min (n + k) 65535

/-- A 16-bit saturating counter increased by one. -/
def satInc (n : Nat) : Nat := satAdd n 1

/-- A value held at the nearer bound of a range. -/
def heldNat (lo hi v : Nat) : Nat := max lo (min hi v)

/-- A signed value held at the nearer bound of a range. -/
def heldInt (lo hi v : Int) : Int := max lo (min hi v)

/-! ## Bytes (spec 12: most significant byte first, two's complement) -/

/-- A 16-bit field from its two bytes. -/
def half (hi lo : Byte) : Half := hi ++ lo

/-- A 16-bit field's two bytes. -/
def halfBytes (h : Half) : List Byte := [h.extractLsb' 8 8, h.extractLsb' 0 8]

/-- A 32-bit field's four bytes. -/
def posBytes (p : Pos) : List Byte :=
  [p.extractLsb' 24 8, p.extractLsb' 16 8, p.extractLsb' 8 8, p.extractLsb' 0 8]

/-- A number as one byte. -/
def byte (n : Nat) : Byte := BitVec.ofNat 8 n

/-- A number as two bytes. -/
def natBytes (n : Nat) : List Byte := halfBytes (BitVec.ofNat 16 n)

/-- A signed number as two bytes. -/
def intBytes (i : Int) : List Byte := halfBytes (BitVec.ofInt 16 i)

/-- A signed number as four bytes. -/
def wideIntBytes (i : Int) : List Byte := posBytes (BitVec.ofInt 32 i)

/-- A flag or mark as one byte (Table 12-1). -/
def flagByte (b : Bool) : Byte := if b then 1 else 0

/-- Flags packed into one byte, in order from bit 0. -/
def packFlags (bs : List Bool) : Byte :=
  bs.foldr (fun b acc => (acc <<< 1) ||| flagByte b) 0

/-! ## The check (R4): x^16 + x^12 + x^5 + 1, all ones at the start, most significant bit first -/

/-- The check register after one bit of zeros has been shifted in. -/
def checkBit (r : Half) : Half := if r.msb then (r <<< 1) ^^^ 0x1021#16 else r <<< 1

/-- The check register after one byte. -/
def checkByte (r : Half) (b : Byte) : Half :=
  checkBit (checkBit (checkBit (checkBit (checkBit (checkBit (checkBit (checkBit
    (r ^^^ (b ++ 0#8)))))))))

/-- The check over a list of bytes. -/
def checkOf (bytes : List Byte) : Half := bytes.foldl checkByte 0xFFFF#16

/-! ## Enumeration codes, Table 12-1 -/

def FrameKind.code : FrameKind → Byte
  | .seg => 1 | .mark => 2 | .beacon => 3 | .claim => 4 | .trip => 5 | .rdreq => 6 | .wrreq => 7
  | .reply => 8 | .sched => 9 | .fault => 10 | .echo => 11

/-- The kind of a code, where one has it. -/
def FrameKind.ofCode (b : Byte) : Option FrameKind :=
  match b.toNat with
  | 1 => some .seg | 2 => some .mark | 3 => some .beacon | 4 => some .claim | 5 => some .trip
  | 6 => some .rdreq | 7 => some .wrreq | 8 => some .reply | 9 => some .sched | 10 => some .fault
  | 11 => some .echo
  | _ => none

def StandState.code : StandState → Byte
  | .starting => 0 | .quiet => 1 | .preset => 2 | .ready => 3 | .threading => 4 | .rolling => 5
  | .tailing => 6 | .tripped => 7 | .lockout => 8

def Status.code : Status → Byte
  | .done => 0 | .noObject => 1 | .access => 2 | .state => 3 | .range => 4 | .busy => 5
  | .aborted => 6 | .failed => 7

def FaultClass.code : FaultClass → Byte
  | .correctable => 1 | .nonfatal => 2 | .fatal => 3

def AccessClass.code : AccessClass → Byte
  | .closed => 0 | .read => 1 | .readWrite => 2 | .quietWrite => 3 | .gated => 4

def closureCode : Closure → Byte
  | .openTo => 0 | .quiet => 1 | .closed => 2

def closureOfCode (b : Byte) : Option Closure :=
  match b.toNat with
  | 0 => some .openTo | 1 => some .quiet | 2 => some .closed
  | _ => none

def senseCode : Sense → Byte
  | .rising => 0 | .falling => 1 | .high => 2 | .low => 3

/-- The sense of two bits; every code is a sense. -/
def senseOfBits (b : BitVec 2) : Sense :=
  match b.toNat with
  | 0 => .rising | 1 => .falling | 2 => .high
  | _ => .low

def RingState.code : RingState → Byte
  | .dark => 0 | .claiming => 1 | .seeking => 2 | .joined => 3 | .broken => 4 | .conflict => 5

def BreakRecord.code : BreakRecord → Byte
  | .none => 0 | .ringOpen => 1 | .link => 2

def Liveness.code : Liveness → Byte
  | .unheard => 0 | .live => 1 | .lost => 2

def Supervision.code : Supervision → Byte
  | .idle => 0 | .moving => 1 | .retracting => 2 | .retracted => 3 | .retractFailed => 4

def Slot.code : Slot → Byte
  | .empty => 0 | .loading _ => 1 | .loaded _ _ => 2 | .pending _ _ => 3 | .active _ _ => 4

def ResetCause.code : ResetCause → Byte
  | .powerOn => 0 | .hard => 1 | .soft => 2

def routeCode : Route → Byte
  | .hold => 1 | .trip => 2

def routeOfCode (b : Byte) : Option Route :=
  match b.toNat with
  | 1 => some .hold | 2 => some .trip
  | _ => none

def reportLevelCode : ReportLevel → Byte
  | .none => 0 | .fatal => 1 | .severe => 2 | .all => 3

def reportLevelOfCode (b : Byte) : Option ReportLevel :=
  match b.toNat with
  | 0 => some .none | 1 => some .fatal | 2 => some .severe | 3 => some .all
  | _ => none

/-- The number of a fault code, 1..32 (Table 10-1). -/
def FaultCode.number : FaultCode → Nat
  | .frameCheck => 1 | .frameForm => 2 | .orphanRemoved => 3 | .passOverrun => 4
  | .ownFrameLost => 5 | .insertFull => 6 | .claimObjected => 7 | .stationConflict => 8
  | .ringBreak => 9 | .ringBreakExpired => 10 | .neighbourLost => 11 | .sampleOverrun => 12
  | .gaugeWithdrawn => 13 | .forceSensor => 14 | .positionSensor => 15 | .encoderReverse => 16
  | .tiltLimit => 17 | .overload => 18 | .trackGap => 19 | .arrivalFull => 20 | .markGap => 21
  | .cobble => 22 | .exitTrackFull => 23 | .unexpectedLoad => 24 | .schedRefused => 25
  | .moveTimeout => 26 | .retractTimeout => 27 | .servoFault => 28 | .demandClamped => 29
  | .coefUnusable => 30 | .paramTimeout => 31 | .lateApplication => 32

/-- Cause kinds, Table 12-1. -/
def causeLine : Byte := 1
def causeFault : Byte := 2

/-- The destination ALL (R1, spec 00). -/
def stationAll : Byte := 31

/-! ## Frames (R196) -/

/-- The payload lengths that R5 admits for each kind (R196). -/
def payloadAdmitted (kind : FrameKind) (payload : List Byte) : Bool :=
  match kind with
  | .seg => payload.length = 12
  | .mark => payload.length = 6
  | .beacon => payload.length = 7
  | .claim => payload.length = 1
  | .trip => payload.length = 6
  | .rdreq => payload.length = 3
  | .fault => payload.length = 7
  | .wrreq | .echo =>
    match payload with
    | _ :: n :: value => n.toNat ≤ 16 && value.length = n.toNat
    | _ => false
  | .reply =>
    match payload with
    | _ :: _ :: _ :: n :: value => n.toNat ≤ 44 && value.length = n.toNat
    | _ => false
  | .sched =>
    match payload with
    | [] => false
    | k :: _ =>
      if k = 1 then payload.length = 3
      else if k = 2 then 4 ≤ payload.length && payload.length ≤ 28
      else if k = 3 then payload.length = 4
      else false

/-- What the receiver makes of a frame that has arrived (R5). -/
inductive Arrived where
  | badCheck
  | badForm
  | intact (f : Frame)
deriving DecidableEq, Repr

/-- The header fields and payload of the bytes before the check, where each lies in its range (R5). -/
def parseBody (body : List Byte) : Option Frame :=
  match body with
  | k :: src :: dst :: tag :: hop :: marker :: len :: payload =>
    match FrameKind.ofCode k with
    | none => none
    | some kind =>
      if 1 ≤ src.toNat && src.toNat ≤ 30 && 1 ≤ dst.toNat && dst.toNat ≤ 31 && hop.toNat ≤ 32 &&
          len.toNat = payload.length && payloadAdmitted kind payload then
        some { kind := kind, source := src, dest := dst, tag := tag, hop := hop.toNat,
               objection := marker.getLsbD 0, payload := payload }
      else none
  | _ => none

/-- The two last bytes of a list, as the received check; none where there are fewer. -/
def receivedCheck (bytes : List Byte) : Option Half :=
  match bytes.reverse with
  | lo :: hi :: _ => some (half hi lo)
  | _ => none

/-- R5: the check is judged first, then the common fields and the payload length (log 11). -/
def judgeArrival (bytes : List Byte) : Arrived :=
  let body := bytes.take (bytes.length - 2)
  if receivedCheck bytes ≠ some (checkOf body) then .badCheck
  else match parseBody body with
    | none => .badForm
    | some f => .intact f

/-- The bytes of a frame before its check (Table 12-2). -/
def Frame.body (f : Frame) : List Byte :=
  f.kind.code :: f.source :: f.dest :: f.tag :: byte f.hop :: flagByte f.objection ::
    byte f.payload.length :: f.payload

/-- The bytes of a frame as sent on RING_TX, with the check computed afresh (R4). -/
def Frame.encode (f : Frame) : List Byte := f.body ++ halfBytes (checkOf f.body)

/-! ## Payloads (Table 12-3) -/

def segOfBytes : List Byte → Option SegPayload
  | [n1, n0, c1, c0, d1, d0, k, fl, r1, r0, s, i] =>
    some { number := half n1 n0, coil := half c1 c0, deviation := half d1 d0, sampleCount := k,
           flags := fl, remaining := half r1 r0, scheduleId := s, standIndex := i }
  | _ => none

def markOfBytes : List Byte → Option MarkPayload
  | [n1, n0, l1, l0, k, i] =>
    some { number := half n1 n0, length := half l1 l0, interval := k, standIndex := i }
  | _ => none

def beaconOfBytes : List Byte → Option BeaconPayload
  | [i, s, fl, sch, n1, n0, o] =>
    some { standIndex := i, standState := s, flags := fl, scheduleId := sch,
           lastClosed := half n1 n0, originStation := o }
  | _ => none

def tripOfBytes : List Byte → Option TripPayload
  | [s, i, k, d, n1, n0] =>
    some { station := s, standIndex := i, causeKind := k, detail := d, number := half n1 n0 }
  | _ => none

/-- The contents of a BEACON as the node uses them: a numeric field outside its range is held at the
nearer bound, an unknown stand state is kept as received (R196, log 23). -/
def beaconInfo (p : BeaconPayload) : BeaconInfo :=
  { standIndex := heldNat 1 8 p.standIndex.toNat
    standState := p.standState
    stripPresent := p.flags.getLsbD 0
    tripped := p.flags.getLsbD 1
    hold := p.flags.getLsbD 2
    scheduleId := p.scheduleId.toNat
    lastClosed := p.lastClosed
    originStation := heldNat 0 30 p.originStation.toNat }

/-- The deviation a SEG carries: absent at sample count 0, held within 2,000 either way (R196). -/
def segDeviation (p : SegPayload) : Option Int :=
  if p.sampleCount = 0 then none else some (heldInt (-2000) 2000 p.deviation.toInt)

/-- The arrival record of a SEG, with its due position still to be formed (R94, R196). A schedule id of 0 is
kept as received: that it lies in the field's range is the model's choice (log 23). -/
def segRecord (p : SegPayload) (due : Pos) : ArrivalRecord :=
  { number := p.number
    coil := p.coil
    deviation := segDeviation p
    sampleCount := p.sampleCount.toNat
    head := p.flags.getLsbD 0
    weld := p.flags.getLsbD 1
    tail := p.flags.getLsbD 2
    offgauge := p.flags.getLsbD 3
    beyond := p.flags.getLsbD 4
    remaining := heldNat 0 12000 p.remaining.toNat
    scheduleId := p.scheduleId.toNat
    due := due }

/-- The segment length a MARK carries, held within 250..4,000 (R196). -/
def markLength (p : MarkPayload) : Nat := heldNat 250 4000 p.length.toNat

/-- The mark interval a MARK carries, held within 4..64, where 0 is used as 4 (R196). -/
def markIntervalUsed (p : MarkPayload) : Nat := heldNat 4 64 p.interval.toNat

/-- The origin a TRIP frame names; the stand index is held within 0..8 (R164, R196). -/
def tripOrigin (p : TripPayload) : Origin :=
  { station := p.station.toNat
    standIndex := heldNat 0 8 p.standIndex.toNat
    causeKind := p.causeKind
    detail := p.detail
    number := p.number }

/-! ## Schedule records (R121, R122, Table 12-5) -/

/-- The number of the `i`th two bytes of a content. -/
def wordAt (bs : List Byte) (i : Nat) : Nat := (half (bs.getD i 0) (bs.getD (i + 1) 0)).toNat

/-- The profile entries of a section 2 content after its count. -/
def profileEntries : List Byte → List (Nat × Int)
  | o :: t1 :: t0 :: more => (o.toNat, (half t1 t0).toInt) :: profileEntries more
  | _ => []

/-- A content suits its section number (R126, Table 12-5). -/
def contentSuits (number : Nat) (content : List Byte) : Bool :=
  if number = 1 then content.length = 18
  else match content with
    | k :: more => k.toNat ≤ 8 && more.length = 3 * k.toNat
    | [] => false

/-- The schedule record of the sections received (Table 12-5). -/
def scheduleOf (sections : List (List Byte)) : Schedule :=
  let s1 := sections.getD 0 []
  { entryTarget := wordAt s1 0
    exitTarget := wordAt s1 2
    threadGap := wordAt s1 4
    rollGap := wordAt s1 6
    gapMin := wordAt s1 8
    gapMax := wordAt s1 10
    forceLimit := wordAt s1 12
    offGauge := wordAt s1 14
    pclass := (s1.getD 16 0).toNat
    ffAllowed := (s1.getD 17 0).getLsbD 0
    monitorAllowed := (s1.getD 17 0).getLsbD 1
    profile := profileEntries ((sections.getD 1 []).drop 1) }

/-- Offsets strictly increase from each entry to the next (R122). -/
def offsetsRise : List (Nat × Int) → Bool
  | a :: b :: more => a.1 < b.1 && offsetsRise (b :: more)
  | _ => true

/-- The validation of R127: every field in the range of R121 and R122, and the constraints. -/
def Schedule.valid (r : Schedule) : Bool :=
  r.entryTarget ≤ 8000 && r.exitTarget ≤ 8000 && r.threadGap ≤ 60000 && r.rollGap ≤ 60000 &&
  r.gapMin ≤ 60000 && r.gapMax ≤ 60000 && r.forceLimit ≤ 60000 && r.offGauge ≤ 8000 &&
  r.pclass ≤ 63 && r.profile.length ≤ 8 &&
  r.profile.all (fun e => 1 ≤ e.1 && e.1 ≤ 255 && -1000 ≤ e.2 && e.2 ≤ 1000) &&
  r.gapMin < r.gapMax &&
  r.gapMin ≤ r.threadGap && r.threadGap ≤ r.gapMax &&
  r.gapMin ≤ r.rollGap && r.rollGap ≤ r.gapMax &&
  r.exitTarget < r.entryTarget &&
  offsetsRise r.profile

/-! ## Coefficient records (R149, R198) -/

/-- A coefficient record whose fields lie in their ranges (R149). -/
def CoefRecord.inRange (r : CoefRecord) : Bool :=
  r.tag.pclass ≤ 63 && r.tag.band ≤ 7 && -2000 ≤ r.ff && r.ff ≤ 2000 && r.mon ≤ 1000

/-- The COEF_ENTRY layout of Table 12-4. -/
def CoefRecord.value (r : CoefRecord) : List Byte :=
  byte r.tag.pclass :: byte r.tag.band :: (intBytes r.ff ++ natBytes r.mon)

/-- The nine bytes of a coefficient record in parameter memory, present and with its check (R198). -/
def CoefRecord.bytes (r : CoefRecord) : List Byte :=
  let body := 0xA5#8 :: r.value
  body ++ halfBytes (checkOf body)

/-- The offset of a tag's record in parameter memory (R198). -/
def CoefTag.offset (t : CoefTag) : Nat := 0x0100 + 16 * (8 * t.pclass + t.band)

/-- The record that nine bytes read for a tag hold, where they are intact (R151, R198). -/
def recordRead (t : CoefTag) (bs : List Byte) : Option CoefRecord :=
  match bs with
  | [m, c, b, f1, f0, n1, n0, k1, k0] =>
    let r : CoefRecord := { tag := ⟨c.toNat, b.toNat⟩, ff := (half f1 f0).toInt,
                            mon := (half n1 n0).toNat }
    if half k1 k0 = checkOf [m, c, b, f1, f0, n1, n0] && m = 0xA5 && r.tag = t && r.inRange
    then some r else none
  | _ => none

/-! ## The configuration image (Table 11-1, Table 12-6) -/

/-- The configuration of a trip line from its byte: bits 0 and 1 the sense, bit 7 the enable. -/
def lineConfigOf (b : Byte) : LineConfig :=
  { sense := senseOfBits (b.extractLsb' 0 2), enabled := b.getLsbD 7 }

/-- The values of an image of 90 bytes; an enumerated field with an unknown code takes its first
code here and is found out of range by `imageInRange`. -/
def configOf (im : List Byte) : NodeConfig :=
  let b (i : Nat) : Nat := (im.getD i 0).toNat
  let w (i : Nat) : Nat := wordAt im i
  { standIndex := b 0, upstream := b 1, downstream := b 2
    segLength := w 3, biteDistance := w 5, gaugeOffset := w 7, publishLead := w 9, ffLead := w 11
    markInterval := b 13
    cobbleTolerance := w 14, loadOn := w 16, loadOff := w 18
    bandEdges := [w 20, w 22, w 24, w 26, w 28, w 30, w 32]
    tiltLimit := w 34, stepThreshold := w 36, positionTolerance := b 38
    moveTimeout := w 39, retractTimeout := w 41, standbyGap := w 43, retractGap := w 45
    beaconInterval := b 47, returnTimeout := b 48, ringBreakGrace := w 49
    route := (routeOfCode (im.getD 51 0)).getD .hold
    reportLevel := (reportLevelOfCode (im.getD 52 0)).getD .none
    reportBudget := b 53
    lines := ⟨lineConfigOf (im.getD 54 0), lineConfigOf (im.getD 55 0), lineConfigOf (im.getD 56 0),
              lineConfigOf (im.getD 57 0)⟩
    authority := [b 59, b 60, b 61, b 62].take (b 58)
    closures := ((im.drop 63).take 25).map (fun x => (closureOfCode x).getD .openTo)
    imageCheck := half (im.getD 88 0) (im.getD 89 0) }

/-- Each value is less than the next. -/
def strictlyRising : List Nat → Bool
  | a :: b :: more => a < b && strictlyRising (b :: more)
  | _ => true

/-- The built access class of each object, 0 to 24 (Table 3-2). -/
def builtClass (index : Nat) : Option AccessClass :=
  match index with
  | 2 | 15 | 17 | 18 | 21 => some .gated
  | 4 | 6 | 7 | 8 | 9 | 13 => some .readWrite
  | 0 | 1 | 3 | 5 | 10 | 11 | 12 | 14 | 16 | 19 | 20 | 22 | 23 | 24 => some .read
  | _ => none

/-- The access class settled from the built class and the closure; none marks "image invalid" (R45). -/
def settleClass (built : AccessClass) (k : Closure) : Option AccessClass :=
  match built, k with
  | c, .openTo => some c
  | .readWrite, .quiet => some .quietWrite
  | .readWrite, .closed => some .closed
  | .gated, .closed => some .closed
  | _, _ => none

/-- Each closure is one that R45 admits for its object's built class. -/
def closuresAdmitted (ks : List Closure) : Bool :=
  ks.length = 25 && ks.zipIdx.all (fun p =>
    match builtClass p.2 with
    | none => false
    | some c => (settleClass c p.1).isSome)

/-- Every field of the image within its range (Table 11-1, R190, R198). -/
def imageInRange (im : List Byte) (c : NodeConfig) : Bool :=
  1 ≤ c.standIndex && c.standIndex ≤ 8 &&
  1 ≤ c.upstream && c.upstream ≤ 30 && 1 ≤ c.downstream && c.downstream ≤ 30 &&
  250 ≤ c.segLength && c.segLength ≤ 4000 &&
  2000 ≤ c.biteDistance && c.biteDistance ≤ 12000 &&
  100 ≤ c.gaugeOffset && c.gaugeOffset ≤ c.biteDistance &&
  c.publishLead ≤ 4000 && c.ffLead ≤ 2000 &&
  (c.markInterval = 0 || (4 ≤ c.markInterval && c.markInterval ≤ 64)) &&
  10 ≤ c.cobbleTolerance && c.cobbleTolerance ≤ 2000 &&
  c.loadOn ≤ 60000 && c.loadOff ≤ 60000 && c.bandEdges.all (· ≤ 60000) &&
  50 ≤ c.tiltLimit && c.tiltLimit ≤ 2000 && 20 ≤ c.stepThreshold && c.stepThreshold ≤ 500 &&
  5 ≤ c.positionTolerance && c.positionTolerance ≤ 100 &&
  50 ≤ c.moveTimeout && c.moveTimeout ≤ 2000 && 100 ≤ c.retractTimeout && c.retractTimeout ≤ 3000 &&
  c.standbyGap ≤ 60000 && c.retractGap ≤ 60000 &&
  [2, 5, 10, 20].contains c.beaconInterval && [0, 1, 4, 16, 64].contains c.returnTimeout &&
  20 ≤ c.ringBreakGrace && c.ringBreakGrace ≤ 500 &&
  (routeOfCode (im.getD 51 0)).isSome && (reportLevelOfCode (im.getD 52 0)).isSome &&
  (im.getD 58 0).toNat ≤ 4 && c.authority.all (fun s => 1 ≤ s && s ≤ 30) &&
  ((im.drop 63).take 25).all (fun x => (closureOfCode x).isSome)

/-- R190: the image is accepted, for a node whose strapped station number is `station`. -/
def imageAccepted (station : Nat) (im : List Byte) : Bool :=
  let c := configOf im
  im.length = 90 && c.imageCheck = checkOf (im.take 88) && imageInRange im c &&
  c.gaugeOffset + c.segLength + c.publishLead ≤ c.biteDistance && c.gaugeOffset < c.biteDistance &&
  c.loadOff < c.loadOn && strictlyRising c.bandEdges &&
  c.upstream ≠ station && c.downstream ≠ station && closuresAdmitted c.closures

end Sys2Proof.Machine
end

