-- ==== Sys2Proof/Machine/Flags.lean ====
section
/-! DEFINITION. Marks, flags and views: what the node reads off its state (log 36). -/

namespace Sys2Proof.Machine

/-- The strip states: THREADING, ROLLING, TAILING (spec 00). -/
def StandState.strip : StandState → Bool
  | .threading | .rolling | .tailing => true
  | _ => false

/-- QUIET, PRESET or READY: where a QUIET_WRITE object may be written and NODE_RESET taken. -/
def StandState.quietish : StandState → Bool
  | .quiet | .preset | .ready => true
  | _ => false

/-- TRIPPED or LOCKOUT. -/
def StandState.stopped : StandState → Bool
  | .tripped | .lockout => true
  | _ => false

/-- A hold cause is set (R116). -/
def Holds.any (h : Holds) : Bool := h.ring || h.neighbour || h.reverse || h.overload

/-- Whether a cause is set. -/
def Holds.has (h : Holds) : HoldCause → Bool
  | .ring => h.ring
  | .neighbour => h.neighbour
  | .reverse => h.reverse
  | .overload => h.overload

/-- A cause set or cleared. -/
def Holds.put (h : Holds) (k : HoldCause) (b : Bool) : Holds :=
  match k with
  | .ring => { h with ring := b }
  | .neighbour => { h with neighbour := b }
  | .reverse => { h with reverse := b }
  | .overload => { h with overload := b }

/-! ## Four things -/

/-- The thing numbered `k`. -/
def getFour {α : Type} (v : Four α) (k : Fin 4) : α :=
  match k with
  | 0 => v.x0
  | 1 => v.x1
  | 2 => v.x2
  | 3 => v.x3

/-- The thing numbered `k` replaced. -/
def setFour {α : Type} (v : Four α) (k : Fin 4) (a : α) : Four α :=
  match k with
  | 0 => { v with x0 := a }
  | 1 => { v with x1 := a }
  | 2 => { v with x2 := a }
  | 3 => { v with x3 := a }

/-- The four things in order. -/
def listFour {α : Type} (v : Four α) : List α := [v.x0, v.x1, v.x2, v.x3]

/-! ## Force and position (R68 to R72) -/

/-- The total force (R68). -/
def Meas.total (m : Meas) : Nat := m.forceOS.value + m.forceDS.value

/-- The measured gap: the mean of the two sides, truncated (R71). -/
def Meas.gap (m : Meas) : Nat := (m.posOS.value + m.posDS.value) / 2

/-- The tilt: the drive side minus the operator side (R71). -/
def Meas.tilt (m : Meas) : Int := (m.posDS.value : Int) - m.posOS.value

/-- The force band: how many band edges the total reaches or exceeds (R69). -/
def bandOf (edges : List Nat) (total : Nat) : Nat := edges.countP (· ≤ total)

/-! ## Schedules (R121, R123) -/

/-- The ACTIVE schedule and its id. -/
def SchedStore.active (s : SchedStore) : Option (Nat × Schedule) :=
  (listFour s.slots).findSome? (fun x => match x with | .active id r => some (id, r) | _ => none)

/-- The PENDING schedule and its id. -/
def SchedStore.pendingSlot (s : SchedStore) : Option (Nat × Schedule) :=
  (listFour s.slots).findSome? (fun x => match x with | .pending id r => some (id, r) | _ => none)

/-- The id of the ACTIVE slot, or 0. -/
def SchedStore.activeId (s : SchedStore) : Nat :=
  match s.active with
  | some (id, _) => id
  | none => 0

/-- The id a slot holds; an EMPTY slot holds none. -/
def Slot.id : Slot → Option Nat
  | .empty => none
  | .loading l => some l.id
  | .loaded id _ | .pending id _ | .active id _ => some id

/-- The complete schedule a slot holds. -/
def Slot.record : Slot → Option Schedule
  | .empty | .loading _ => none
  | .loaded _ r | .pending _ r | .active _ r => some r

/-- The product class of the ACTIVE schedule (0 where none is ACTIVE, which no lookup meets). -/
def SchedStore.activeClass (s : SchedStore) : Nat :=
  match s.active with
  | some (_, r) => r.pclass
  | none => 0

/-- Feedforward is effective (R140). -/
def Node.ffEffective (n : Node) : Bool :=
  n.gap.ffEnable && (match n.sched.active with | some (_, r) => r.ffAllowed | none => false)

/-- Monitoring is effective (R142). -/
def Node.monitorEffective (n : Node) : Bool :=
  n.gap.monitorEnable && (match n.sched.active with | some (_, r) => r.monitorAllowed | none => false)

/-! ## Tracking -/

/-- The current segment number: the open segment's, otherwise the last closed one (R82). -/
def Tracking.current (t : Tracking) : Half :=
  match t.openSeg with
  | some g => g.number
  | none => t.lastClosed

/-! ## Trips (R160, R161, R166, R173) -/

/-- The unknown origin (R165). -/
def Origin.unknown : Origin := { station := 0, standIndex := 0, causeKind := 0, detail := 0, number := 0 }

/-- A place holds the unknown origin. -/
def isUnknown (o : Option Origin) : Bool :=
  match o with
  | some g => g.station = 0
  | none => false

/-- A place holds an origin of a station. -/
def holdsStation (o : Option Origin) (station : Nat) : Bool :=
  match o with
  | some g => g.station = station
  | none => false

/-- The origin record holds an origin of a station in its active or pending place. -/
def TripUnit.recorded (t : TripUnit) (station : Nat) : Bool :=
  holdsStation t.active station || holdsStation t.pending station

/-- A line at a level meets a level sense. -/
def levelMeets (k : LineConfig) (level : Bool) : Bool :=
  match k.sense with
  | .high => level
  | .low => !level
  | _ => false

/-- A change of a line to a level is an occurrence of its condition (spec 09 section 9.1). -/
def conditionOccurs (k : LineConfig) (level : Bool) : Bool :=
  match k.sense with
  | .rising | .high => level
  | .falling | .low => !level

/-- The flag a start record gives at acceptance (spec 09 section 9.1). -/
def flagFromRecord (k : LineConfig) (l : LineState) : Bool :=
  match k.sense with
  | .rising => l.seenRise
  | .falling => l.seenFall
  | .high => l.seenHigh
  | .low => l.seenLow

/-- The line `k` is a local level cause that is active (R160). -/
def levelCauseActive (c : NodeConfig) (p : Pins) (k : Fin 4) : Bool :=
  (getFour c.lines k).enabled && levelMeets (getFour c.lines k) (getFour p.lines k)

/-- Some local level cause is active (R160). -/
def anyLevelCause (c : NodeConfig) (p : Pins) : Bool :=
  levelCauseActive c p 0 || levelCauseActive c p 1 || levelCauseActive c p 2 || levelCauseActive c p 3

/-- The loop switch is open: in a reset, in STARTING or LOCKOUT, or while the origin record holds an
origin of this node (R161, R188). -/
def Node.switchOpen (c : Settings) (n : Node) : Bool :=
  n.startup.phase = .inReset || n.seq.stand = .starting || n.seq.stand = .lockout ||
  n.trip.recorded c.station

/-- The awaiting-loop flag (R173). -/
def Node.awaitingLoop (n : Node) : Bool := n.seq.stand = .tripped && !n.pins.loopClosed

/-- The awaiting-retract flag (R173). -/
def Node.awaitingRetract (n : Node) : Bool :=
  n.seq.stand = .tripped && n.gap.supervision ≠ .retracted

/-- The origins-lost flag (R173). -/
def Node.originsLost (n : Node) : Bool :=
  n.seq.stand = .tripped && 0 < n.trip.dropped && n.trip.active.isNone && n.trip.pending.isNone

/-- The conditions of leaving TRIPPED (R172). -/
def Node.mayLeaveTripped (n : Node) : Bool :=
  n.seq.stand = .tripped && n.trip.active.isNone && n.trip.pending.isNone && n.trip.dropped = 0 &&
  n.pins.loopClosed && n.gap.supervision = .retracted

/-- CONFIG_INVALID is asserted (R190). -/
def Node.configInvalid (n : Node) : Bool := n.startup.phase = .invalid

/-! ## Faults (R178, Table 10-1) -/

/-- The class of a code raised in a stand state. -/
def FaultCode.cls (code : FaultCode) (stand : StandState) : FaultClass :=
  match code with
  | .stationConflict | .forceSensor | .moveTimeout => if stand.strip then .fatal else .correctable
  | .ringBreak | .neighbourLost => if stand.strip then .nonfatal else .correctable
  | .ringBreakExpired | .positionSensor | .tiltLimit | .cobble | .unexpectedLoad | .retractTimeout
  | .servoFault => .fatal
  | .encoderReverse | .overload => .nonfatal
  | .frameCheck | .frameForm | .orphanRemoved | .passOverrun | .ownFrameLost | .insertFull
  | .claimObjected | .sampleOverrun | .gaugeWithdrawn | .trackGap | .arrivalFull | .markGap
  | .exitTrackFull | .schedRefused | .demandClamped | .coefUnusable | .paramTimeout
  | .lateApplication => .correctable

/-- The actuator group (R174, R178). -/
def FaultCode.actuator : FaultCode → Bool
  | .positionSensor | .retractTimeout | .servoFault => true
  | _ => false

/-- The hold cause of a NONFATAL code (R182). -/
def FaultCode.holdCause : FaultCode → Option HoldCause
  | .ringBreak => some .ring
  | .neighbourLost => some .neighbour
  | .encoderReverse => some .reverse
  | .overload => some .overload
  | _ => none

/-- The classes a report level admits (R183). -/
def levelAdmits (level : ReportLevel) (cls : FaultClass) : Bool :=
  match level with
  | .none => false
  | .fatal => cls = .fatal
  | .severe => cls = .fatal || cls = .nonfatal
  | .all => true

/-! ## Ring states (R13, R17, Table 1-3) -/

/-- The kinds a ring state admits to the insert queue. -/
def RingState.admits (r : RingState) (k : FrameKind) : Bool :=
  match r with
  | .dark | .conflict => false
  | .claiming => k = .claim
  | .seeking | .joined => true
  | .broken => k ≠ .claim

/-- The ring states in which the trip slot is sent. -/
def RingState.sendsTrip : RingState → Bool
  | .seeking | .joined | .broken => true
  | _ => false

/-- The ring states in which frames are delivered (R11). -/
def RingState.delivers : RingState → Bool
  | .seeking | .joined => true
  | _ => false

/-- The flags byte of a BEACON (R33). -/
def beaconFlags (n : Node) : Byte :=
  packFlags [n.seq.stand.strip, n.seq.stand.stopped, n.seq.holds.any]

end Sys2Proof.Machine
end

