-- ==== Sys2Proof/Machine/Ops.lean ====
section
/-! DEFINITION. The shared operations: the parameter memory (R198), the Ring Port's queues and
arbiter (R2, R3, R13 to R19), the handling of fault events that need no routing (R179 to R184), and
REPLY and ECHO frames (R47, R56). -/

namespace Sys2Proof.Machine

/-! ## Timers -/

/-- A timer has run out: it runs, with nothing left. The row of an expiry acts on such a timer only, so that
one that waited while its timer was started again or stopped does nothing (log 2). -/
def timerOut (t : Option Nat) : Bool := t = some 0

/-! ## Parameter memory, in one canonical form -/

/-- What an address reads as that nothing has written (log 9). -/
def memDefault : Byte := 0xFF

/-- The byte at an address. -/
def memRead (m : List Host.Cell) (a : Nat) : Byte :=
  match m with
  | [] => memDefault
  | (x, y) :: rest => if x = a then y else memRead rest a

/-- A byte written at an address; writing what an unlisted address reads as removes the entry. -/
def memWrite (m : List Host.Cell) (a : Nat) (b : Byte) : List Host.Cell :=
  match m with
  | [] => if b = memDefault then [] else [(a, b)]
  | (x, y) :: rest =>
    if a < x then (if b = memDefault then (x, y) :: rest else (a, b) :: (x, y) :: rest)
    else if a = x then (if b = memDefault then rest else (a, b) :: rest)
    else (x, y) :: memWrite rest a b

/-- Bytes written from an address upward. -/
def memWriteBytes (m : List Host.Cell) (a : Nat) : List Byte → List Host.Cell
  | [] => m
  | b :: bs => memWriteBytes (memWrite m a b) (a + 1) bs

/-- `k` bytes read from an address upward. -/
def memReadBytes (m : List Host.Cell) (a : Nat) : Nat → List Byte
  | 0 => []
  | k + 1 => memRead m a :: memReadBytes m (a + 1) k

/-- Addresses strictly rise from `lo` on, and no entry equals what an unlisted address reads as. -/
def memWfFrom (lo : Nat) : List Host.Cell → Bool
  | [] => true
  | (x, y) :: rest => lo ≤ x && y ≠ memDefault && memWfFrom (x + 1) rest

/-- The canonical form of the parameter memory. -/
def memWf (m : List Host.Cell) : Bool := memWfFrom 0 m

/-- What the external memory holds at an address by the time of a read: the model's record, or bytes
delivered from outside, which the record takes over (log 9). At most `k` bytes are taken. -/
def memTake (m : List Host.Cell) (a k : Nat) (r : MemRead) : List Host.Cell :=
  match r with
  | .stored => m
  | .delivered bs => memWriteBytes m a (bs.take k)

/-! ## The Ring Port -/

/-- The answer to an offer (R13, R14). -/
inductive OfferResult where
  | accepted
  | displaced (kind : FrameKind)
  | refusedByState
  | refusedFull
deriving DecidableEq, Repr

/-- An offer to the insert queue placed or refused, by ring state (R13) and room (R14). -/
def RingPort.place (p : RingPort) (m : RingState) (o : OwnFrame) : RingPort × OfferResult :=
  if !m.admits o.kind then (p, .refusedByState)
  else if p.insertQueue.length < 16 then
    ({ p with insertQueue := if o.fatal then o :: p.insertQueue else p.insertQueue ++ [o] }, .accepted)
  else if !o.fatal then (p, .refusedFull)
  else match p.insertQueue.getLast? with
    | none => (p, .refusedFull)
    | some t =>
      if t.fatal then (p, .refusedFull)
      else ({ p with insertQueue := o :: p.insertQueue.dropLast }, .displaced t.kind)

/-- The insert queue is eligible (R17). -/
def RingPort.eligible (p : RingPort) (m : RingState) : Bool :=
  !p.insertQueue.isEmpty &&
  (match m with
   | .broken => true
   | .claiming | .seeking | .joined => p.outstanding.length < 8
   | .dark | .conflict => false)

/-- An own frame selected from the trip slot or the insert queue: it takes its tag, the counter and
the run move, and a tracked frame joins the outstanding list (R2, R3, R18, R19). -/
def RingPort.sendOwn (p : RingPort) (station : Byte) (o : OwnFrame) (tracked : Bool) : RingPort :=
  { p with
    tagCounter := p.tagCounter + 1
    passRun := 0
    outstanding :=
      if tracked then p.outstanding ++ [{ tag := p.tagCounter, kind := o.kind, sentAt := none }]
      else p.outstanding
    sending := some
      { frame := { kind := o.kind, source := station, dest := o.dest, tag := p.tagCounter, hop := 0,
                   objection := false, payload := o.payload }
        tracked := tracked } }

/-- A pass-through frame selected (R12, R18). -/
def RingPort.sendPass (p : RingPort) (m : RingState) (f : Frame) (rest : List Frame) : RingPort :=
  { p with
    passBuffer := rest
    passRun := if p.eligible m then min (p.passRun + 1) 8 else p.passRun
    sending := some { frame := f, tracked := false } }

/-- The tracked states of R19. -/
def RingState.tracks : RingState → Bool
  | .claiming | .seeking | .joined => true
  | _ => false

/-- Cases 2 to 4 of Table 1-4. -/
def RingPort.selectQueued (p : RingPort) (station : Byte) (m : RingState) : RingPort :=
  match p.passBuffer with
  | f :: rest =>
    if p.passRun < 8 || !p.eligible m then p.sendPass m f rest
    else match p.insertQueue with
      | o :: more => ({ p with insertQueue := more }).sendOwn station o m.tracks
      | [] => p.sendPass m f rest
  | [] =>
    if p.eligible m then
      match p.insertQueue with
      | o :: more => ({ p with insertQueue := more }).sendOwn station o m.tracks
      | [] => p
    else p

/-- The arbiter's selection (Table 1-4). -/
def RingPort.select (p : RingPort) (station : Byte) (m : RingState) : RingPort :=
  match p.tripSlot with
  | some o =>
    if m.sendsTrip then
      ({ p with tripSlot := none }).sendOwn station o (m.tracks && p.outstanding.length < 8)
    else p.selectQueued station m
  | none => p.selectQueued station m

/-- A selection is made when the link is free and a frame is available (R17). -/
def RingPort.pump (p : RingPort) (station : Byte) (m : RingState) : RingPort :=
  match p.sending with
  | some _ => p
  | none => p.select station m

/-- The insert queue emptied; its frames are counted as flushed (R15), and the run is 0 (R18). -/
def RingPort.flush (p : RingPort) : RingPort :=
  { p with
    insertQueue := []
    passRun := 0
    flushedCount := satAdd p.flushedCount p.insertQueue.length }

/-! ## Fault events that need no routing (R179 to R181, R183, R184) -/

/-- What the Ring Port and the Fault Unit read of the rest of the node. -/
structure Ctx where
  station : Byte
  ring    : RingState
  stand   : StandState
  number  : Half
  level   : ReportLevel
  budget  : Nat
deriving DecidableEq, Repr

/-- The Ring Port and the Fault Unit together: what offers and unrouted fault events change. -/
structure Rep where
  ring : RingPort
  flt  : FaultUnit
deriving DecidableEq, Repr

/-- The INSERT_FULL raised for a frame of a kind; for a FAULT frame it is not reported (R183). -/
def insertFullEvent (x : Ctx) (k : FrameKind) : FaultEvent :=
  { code := .insertFull, cls := .correctable, stand := x.stand, number := x.number,
    report := k ≠ .fault }

/-- An event raised inside a larger event, to be handled once that is complete (R179, R105). -/
def FaultUnit.defer (f : FaultUnit) (ev : FaultEvent) : FaultUnit :=
  { f with raised := f.raised ++ [ev] }

/-- An own frame offered to the insert queue (R13, R14). -/
def Rep.offer (x : Ctx) (o : OwnFrame) (r : Rep) : Rep :=
  match r.ring.place x.ring o with
  | (p, .accepted) => { r with ring := p.pump x.station x.ring }
  | (p, .displaced k) => { ring := p.pump x.station x.ring, flt := r.flt.defer (insertFullEvent x k) }
  | (_, .refusedFull) => { r with flt := r.flt.defer (insertFullEvent x o.kind) }
  | (_, .refusedByState) => r

/-- The counter at an index increased by one, saturating. -/
def bumpAt : List Nat → Nat → List Nat
  | [], _ => []
  | c :: cs, 0 => satInc c :: cs
  | c :: cs, k + 1 => c :: bumpAt cs k

/-- The counter of a code (R180). -/
def FaultUnit.counter (f : FaultUnit) (code : FaultCode) : Nat := f.counters.getD (code.number - 1) 0

/-- Steps 1 and 2 of R179: the counter of the code and the first-fault record (R180, R181). -/
def FaultUnit.count (f : FaultUnit) (ev : FaultEvent) : FaultUnit :=
  { f with
    counters := bumpAt f.counters (ev.code.number - 1)
    first :=
      match f.first with
      | some e => some e
      | none => some { code := ev.code, cls := ev.cls, stand := ev.stand, number := ev.number } }

/-- The FAULT frame of an event (R183, Table 12-3). -/
def faultFrame (ev : FaultEvent) (counter : Nat) : OwnFrame :=
  { kind := .fault
    dest := stationAll
    payload := byte ev.code.number :: ev.cls.code :: ev.stand.code :: (halfBytes ev.number ++ natBytes counter)
    fatal := ev.cls = .fatal }

/-- Step 4 of R179: the report level (R183) and the budget (R184); nothing in STARTING. An event that step 4
offers no frame for, the INSERT_FULL of a FAULT frame, leaves the budget and both report counts as they stand
(log 44). -/
def Rep.report (x : Ctx) (ev : FaultEvent) (r : Rep) : Rep :=
  if ev.stand = .starting || !ev.report || !levelAdmits x.level ev.cls then r
  else if x.budget = 0 || r.flt.budgetCount < x.budget then
    Rep.offer x (faultFrame ev (r.flt.counter ev.code))
      { r with flt := { r.flt with
          budgetCount := min (r.flt.budgetCount + 1) 255
          offered := satInc r.flt.offered } }
  else
    { r with flt := { r.flt with budgetExceeded := true, suppressed := satInc r.flt.suppressed } }

/-- A CORRECTABLE event handled: steps 1, 2 and 4; step 3 routes nothing (R182). -/
def Rep.handle (x : Ctx) (ev : FaultEvent) (r : Rep) : Rep :=
  Rep.report x ev { r with flt := r.flt.count ev }

/-- No event raised and not yet handled. -/
def Rep.clearRaised (r : Rep) : Rep := { r with flt := { r.flt with raised := [] } }

/-- An event handled, and after it the events its handling raised (R179). -/
def Rep.handleWhole (x : Ctx) (r : Rep) (ev : FaultEvent) : Rep :=
  let r1 := Rep.handle x ev r.clearRaised
  r1.flt.raised.foldl (fun q k => Rep.handle x k q) r1.clearRaised

/-- The events raised inside a larger event handled once it is complete, in the order of their
raising (R105, R179). They are all CORRECTABLE: INSERT_FULL and DEMAND_CLAMPED. -/
def Rep.settle (x : Ctx) (r : Rep) : Rep :=
  (r.flt.raised.foldl (Rep.handleWhole x) r.clearRaised).clearRaised

/-! ## The same on the node -/

/-- What the Ring Port and the Fault Unit read of the node. -/
def ctxOf (c : Settings) (n : Node) : Ctx :=
  { station := byte c.station, ring := n.memb.ring, stand := n.seq.stand, number := n.track.current,
    level := c.config.reportLevel, budget := c.config.reportBudget }

/-- The arbiter selects where the link is free (R17). -/
def pump (c : Settings) (n : Node) : Node :=
  { n with ring := n.ring.pump (byte c.station) n.memb.ring }

/-- An own frame offered; an INSERT_FULL waits to be handled (R13, R14). -/
def offer (c : Settings) (o : OwnFrame) (n : Node) : Node :=
  let r := Rep.offer (ctxOf c n) o ⟨n.ring, n.flt⟩
  { n with ring := r.ring, flt := r.flt }

/-- The waiting events handled (R105, R179). -/
def settle (c : Settings) (n : Node) : Node :=
  let r := Rep.settle (ctxOf c n) ⟨n.ring, n.flt⟩
  { n with ring := r.ring, flt := r.flt }

/-- An own frame offered, and an INSERT_FULL of its offer handled. -/
def offerNow (c : Settings) (o : OwnFrame) (n : Node) : Node := settle c (offer c o n)

/-- Whether an offer would be refused (R13, R14). -/
def offerRefused (n : Node) (o : OwnFrame) : Bool :=
  match (n.ring.place n.memb.ring o).2 with
  | .accepted | .displaced _ => false
  | .refusedByState | .refusedFull => true

/-- A fault event as carried: its class, stand state and segment number are those of now (R178,
R179). -/
def eventOf (code : FaultCode) (n : Node) : FaultEvent :=
  { code := code, cls := code.cls n.seq.stand, stand := n.seq.stand, number := n.track.current,
    report := true }

/-- An event raised inside a larger event, to be handled once that is complete. -/
def defer (code : FaultCode) (n : Node) : Node := { n with flt := n.flt.defer (eventOf code n) }

/-- The end of every command: waiting events are handled and a free link is served. -/
def finish (c : Settings) (n : Node) : Node := pump c (settle c n)

/-! ## REPLY and ECHO frames -/

/-- A REPLY (R47). -/
def replyFrame (requester tag : Byte) (index : Nat) (status : Status) (value : List Byte) : OwnFrame :=
  { kind := .reply
    dest := requester
    payload := tag :: byte index :: status.code :: byte value.length :: value
    fatal := false }

/-- A REPLY offered. -/
def reply (c : Settings) (requester tag : Byte) (index : Nat) (status : Status) (value : List Byte)
    (n : Node) : Node :=
  offerNow c (replyFrame requester tag index status value) n

/-- An ECHO (R56). -/
def echoFrame (index : Nat) (value : List Byte) : OwnFrame :=
  { kind := .echo, dest := stationAll, payload := byte index :: byte value.length :: value,
    fatal := false }

/-- A request-table entry taken away with a REPLY whose INSERT_FULL waits (R52, R53). -/
def endEntryDeferred (c : Settings) (p : ReqEntry → Bool) (status : Status) (value : List Byte)
    (n : Node) : Node :=
  match n.dir.table.find? p with
  | none => n
  | some e =>
    offer c (replyFrame e.requester e.tag e.index status value)
      { n with dir := { n.dir with table := n.dir.table.eraseP p } }

/-- A request-table entry completed or aborted with its REPLY (R52, R53). -/
def endEntry (c : Settings) (p : ReqEntry → Bool) (status : Status) (value : List Byte) (n : Node) :
    Node :=
  settle c (endEntryDeferred c p status value n)

/-- The PRESET entry of the request table. -/
def isPreset (e : ReqEntry) : Bool := e.kind = .preset

/-- A request takes a place at the tail of the request table (R51). -/
def addEntry (e : ReqEntry) (n : Node) : Node :=
  { n with dir := { n.dir with table := n.dir.table ++ [e] } }

/-- The request table is full (R51). -/
def tableFull (n : Node) : Bool := 4 ≤ n.dir.table.length

end Sys2Proof.Machine
end

