-- ==== Sys2Proof/Machine/GapOps.lean ====
section
/-! DEFINITION. Operations of the Gap Controller (spec 08): the reference and its supervision, the
demand, the coefficient cache, the parameter request queue, and the monitor update. -/

namespace Sys2Proof.Machine

/-! ## Reference and moves (R139, R145) -/

/-- The distance between two gaps. -/
def gapDistance (a b : Nat) : Nat := (a - b) + (b - a)

/-- Move supervision judges a change of the reference (R145). In RETRACTING, RETRACTED and
RETRACT_FAILED no reassembly changes the reference, so those states only follow it. -/
def GapControl.refer (c : NodeConfig) (r : Nat) (g : GapControl) : GapControl :=
  if r = g.reference then g
  else
    let big := c.stepThreshold < gapDistance r g.reference
    match g.supervision with
    | .idle =>
      if big then
        { g with reference := r, supervision := .moving, target := r, timer := some c.moveTimeout,
                 moves := { g.moves with started := satInc g.moves.started } }
      else { g with reference := r }
    | .moving =>
      if big then
        { g with reference := r, target := r, timer := some c.moveTimeout,
                 moves := { g.moves with superseded := satInc g.moves.superseded } }
      else { g with reference := r, target := r }
    | _ => { g with reference := r }

/-- A move started whatever its size: entry to PRESET, and to QUIET from STARTING (R145). -/
def GapControl.startMove (c : NodeConfig) (r : Nat) (g : GapControl) : GapControl :=
  { g with reference := r, supervision := .moving, target := r, timer := some c.moveTimeout,
           moves := { g.moves with started := satInc g.moves.started } }

/-- The retract of trip entry (R147): a move is abandoned, the reference becomes the retract gap and
a supervised retract starts. -/
def GapControl.retract (c : NodeConfig) (g : GapControl) : GapControl :=
  { g with base := some c.retractGap, reference := c.retractGap, supervision := .retracting,
           target := c.retractGap, timer := some c.retractTimeout,
           moves := if g.supervision = .moving then
                      { g.moves with abandoned := satInc g.moves.abandoned } else g.moves }

/-! ## Demand (R106, R117, R138, R139) -/

/-- The trims that act: the frozen ones during a hold (R117). -/
def GapControl.trims (g : GapControl) (held : Bool) : Int :=
  if held then g.frozenTrim + g.frozenProfile else g.gapTrim + g.profileTrim

/-- The demand before the clamp: the base and the terms that R106 admits in the stand state. -/
def GapControl.demand (stand : StandState) (held : Bool) (base : Nat) (g : GapControl) : Int :=
  match stand with
  | .threading => (base : Int) + g.trims held
  | .rolling | .tailing => (base : Int) + g.ff + g.monitor + g.trims held
  | _ => (base : Int)

/-- The demand clamped to the gap limits of a schedule, bounds included (R139). -/
def clampGap (r : Schedule) (d : Int) : Nat :=
  (heldInt r.gapMin r.gapMax d).toNat

/-- The clamp is needed. -/
def clampNeeded (r : Schedule) (d : Int) : Bool := d < r.gapMin || (r.gapMax : Int) < d

/-- The demand reassembled (R139). In a strip state the clamp mark follows, and a DEMAND_CLAMPED
waits to be handled where the mark becomes set. -/
def reassemble (c : Settings) (n : Node) : Node :=
  match n.gap.base with
  | none => n
  | some b =>
    if n.seq.stand.strip then
      let d := n.gap.demand n.seq.stand n.seq.holds.any b
      match n.sched.active with
      | none => n
      | some (_, r) =>
        let needed := clampNeeded r d
        let g := { n.gap with unclamped := d, clampMark := needed }.refer c.config (clampGap r d)
        let flt := if needed && !n.gap.clampMark then n.flt.defer (eventOf .demandClamped n) else n.flt
        { n with gap := g, flt := flt }
    else { n with gap := n.gap.refer c.config b }

/-- The demand reassembled, and a DEMAND_CLAMPED handled. -/
def reassembleNow (c : Settings) (n : Node) : Node := settle c (reassemble c n)

/-- A trim or profile step reassembles in a strip state with no hold only (R139). -/
def reassembleUnheld (c : Settings) (n : Node) : Node :=
  if n.seq.stand.strip && !n.seq.holds.any then reassembleNow c n else n

/-! ## The coefficient cache (R149) -/

/-- The number of a tag's set. -/
def CoefTag.setIndex (t : CoefTag) : Nat := (t.pclass + t.band) % 8

/-- The set of a tag. -/
def GapControl.setOf (g : GapControl) (t : CoefTag) : CacheSet :=
  g.cache.getD t.setIndex CacheSet.invalid

/-- A way holds a tag. -/
def wayHolds (w : Option CoefRecord) (t : CoefTag) : Bool :=
  match w with
  | some r => r.tag = t
  | none => false

/-- The way of a set that holds a tag: false is way 0, true way 1. -/
def CacheSet.find (s : CacheSet) (t : CoefTag) : Option (Bool × CoefRecord) :=
  match s.way0, s.way1 with
  | some r, w =>
    if r.tag = t then some (false, r)
    else match w with
      | some q => if q.tag = t then some (true, q) else none
      | none => none
  | none, some q => if q.tag = t then some (true, q) else none
  | none, none => none

/-- A tag is valid in the cache; the MRU mark and the counts stay as they are. -/
def GapControl.cached (g : GapControl) (t : CoefTag) : Option CoefRecord :=
  ((g.setOf t).find t).map (·.2)

/-- A set of the cache replaced. -/
def GapControl.putSet (g : GapControl) (t : CoefTag) (s : CacheSet) : GapControl :=
  { g with cache := g.cache.set t.setIndex s }

/-- A lookup (R149): a hit moves the MRU mark and keeps the record as the last used (R158). -/
def GapControl.lookup (t : CoefTag) (g : GapControl) : GapControl × Option CoefRecord :=
  match (g.setOf t).find t with
  | some (w, r) =>
    ({ g.putSet t { g.setOf t with mru1 := w } with
        counts := { g.counts with hits := satInc g.counts.hits }, lastCoefs := some r }, some r)
  | none => ({ g with counts := { g.counts with misses := satInc g.counts.misses } }, none)

/-- An intact record installed in the way that the MRU mark does not name (R150). -/
def GapControl.install (r : CoefRecord) (g : GapControl) : GapControl :=
  let s := g.setOf r.tag
  let s' : CacheSet :=
    if s.mru1 then { way0 := some r, way1 := s.way1, mru1 := false }
    else { way0 := s.way0, way1 := some r, mru1 := true }
  { g.putSet r.tag s' with
    counts := { g.counts with fillsInstalled := satInc g.counts.fillsInstalled } }

/-- A set with the copy of a record's tag, if valid, replaced (R153). -/
def CacheSet.update (s : CacheSet) (t : CoefTag) (w : Option CoefRecord) : CacheSet :=
  { s with way0 := if wayHolds s.way0 t then w else s.way0
           way1 := if wayHolds s.way1 t then w else s.way1 }

/-! ## The parameter request queue (R153) -/

/-- The queue has room (R153). -/
def GapControl.room (g : GapControl) : Bool := g.queue.length < 4

/-- A fill for a tag is queued or in service (R150). -/
def GapControl.filling (g : GapControl) (t : CoefTag) : Bool := g.queue.contains (.fill t)

/-- An operation joins the tail; at an idle port it enters service with 20 ms (R153). -/
def GapControl.enqueue (op : ParamOp) (g : GapControl) : GapControl :=
  { g with queue := g.queue ++ [op]
           opTimer := if g.queue.isEmpty then some 20 else g.opTimer }

/-- The operation in service leaves the queue; a wanted fill joins the tail and the next head enters
service (R141, R153). -/
def GapControl.endOperation (g : GapControl) : GapControl :=
  let rest := g.queue.drop 1
  let q := match g.waiting with
    | some w => if w.wanted then rest ++ [.fill w.tag] else rest
    | none => rest
  { g with queue := q
           opTimer := if q.isEmpty then none else some 20
           waiting := g.waiting.map (fun w => { w with wanted := false }) }

/-- A fill placed at the tail where none for the tag is queued and there is room (R142, R152). -/
def GapControl.fillIfRoom (t : CoefTag) (g : GapControl) : GapControl :=
  if g.filling t || !g.room then g else g.enqueue (.fill t)

/-- One tag of a prefetch (R152): the MRU mark and the counts of lookups stay. -/
def GapControl.prefetchTag (g : GapControl) (t : CoefTag) : GapControl :=
  if (g.cached t).isSome || g.filling t then g
  else if g.room then g.enqueue (.fill t)
  else { g with counts := { g.counts with prefetchSkipped := satInc g.counts.prefetchSkipped } }

/-- The tags of a prefetch: the present band, the band below, the band above (R152). -/
def prefetchTags (pclass band : Nat) : List CoefTag :=
  [⟨pclass, band⟩] ++ (if band = 0 then [] else [⟨pclass, band - 1⟩]) ++
    (if 7 ≤ band then [] else [⟨pclass, band + 1⟩])

/-- The prefetch of a newly PENDING class (R152). -/
def GapControl.prefetch (pclass band : Nat) (g : GapControl) : GapControl :=
  (prefetchTags pclass band).foldl GapControl.prefetchTag g

/-- The tag formed from the ACTIVE class and the present force band (R140, R142). -/
def Node.presentTag (n : Node) : CoefTag := ⟨n.sched.activeClass, n.meas.band⟩

/-! ## Monitor (R142) -/

/-- A coefficient times a deviation, divided by 1,000 and truncated toward zero (R140, R142). -/
def perMille (coef dev : Int) : Int := (coef * dev).tdiv 1000

/-- The monitor accumulator set, reassembling where it changes (R139, R142). -/
def setMonitor (c : Settings) (v : Int) (n : Node) : Node :=
  if v = n.gap.monitor then n
  else reassembleNow c { n with gap := { n.gap with monitor := v } }

/-- An exit segment close in ROLLING (R142). -/
def monitorUpdate (c : Settings) (deviation : Option Int) (n : Node) : Node :=
  if n.seq.holds.any then
    { n with gap := { n.gap with counts := { n.gap.counts with holdSkips := satInc n.gap.counts.holdSkips } } }
  else if !n.monitorEffective then setMonitor c 0 n
  else match deviation with
    | none => n
    | some d =>
      match n.gap.lookup n.presentTag with
      | (g, some r) =>
        setMonitor c (heldInt (-5000) 5000 (g.monitor - perMille r.mon d)) { n with gap := g }
      | (g, none) =>
        { n with gap := { g.fillIfRoom n.presentTag with
            counts := { g.counts with missSkips := satInc g.counts.missSkips } } }

/-- The base given to the Gap Controller (R106). -/
def setBase (b : Nat) (n : Node) : Node := { n with gap := { n.gap with base := some b } }

/-- The thread gap of the ACTIVE schedule; the present base where none is ACTIVE, which no entry
meets. -/
def Node.threadGap (n : Node) : Nat :=
  match n.sched.active with
  | some (_, r) => r.threadGap
  | none => n.gap.base.getD 0

/-- The roll gap of the ACTIVE schedule, likewise. -/
def Node.rollGap (n : Node) : Nat :=
  match n.sched.active with
  | some (_, r) => r.rollGap
  | none => n.gap.base.getD 0

end Sys2Proof.Machine
end

