-- ==== Sys2Proof/Machine/TripOps.lean ====
section
/-! DEFINITION. Trip entry and LOCKOUT entry (R167, R174), the origin record (R163, R165), holds
(R116 to R118), and the raising of a fault event through its four steps (R179, R182). -/

namespace Sys2Proof.Machine

/-! ## Trip entry (R167): each block's reaction -/

/-- The sample FIFO emptied: its samples are counted as flushed and HOLD is negated (R65). -/
def Meas.flushFifo (m : Meas) : Meas :=
  { m with fifo := [], hold := false, flushedSamples := satAdd m.flushedSamples m.fifo.length }

/-- The FIFO emptied, the overload mark cleared and the reversal record emptied (R65, R70, R76). -/
def Meas.standDown (m : Meas) : Meas :=
  { m.flushFifo with overload := false, reversal := none }

/-- The entry side cleared (R100, R101): the arrival queue, E, the weld list and the baseline. -/
def Tracking.clearArrival (t : Tracking) : Tracking :=
  { t with arrival := [], headWaiting := false, expected := none, weldList := [], baseline := none,
           counts := { t.counts with
             arrivalDiscarded := satAdd t.counts.arrivalDiscarded t.arrival.length } }

/-- The exit side at trip entry (R100): the exit track discarded and the open segment abandoned. -/
def Tracking.abandonRun (t : Tracking) : Tracking :=
  { t with exitTrack := [], openSeg := none, running := false,
           counts := { t.counts with
             exitDiscarded := satAdd t.counts.exitDiscarded t.exitTrack.length } }

/-- A PENDING slot becomes LOADED (R130, R135). -/
def Slot.disarm : Slot → Slot
  | .pending id r => .loaded id r
  | s => s

/-- Every PENDING slot becomes LOADED. -/
def SchedStore.disarm (s : SchedStore) : SchedStore := { s with slots := mapFour Slot.disarm s.slots }

/-- The stand enters TRIPPED, before the ABORTED reply of a PRESET (R167). -/
def enterTrippedQuietly (c : Settings) (n : Node) : Node :=
  { n with
    seq := { n.seq with stand := .tripped, holds := Holds.empty }
    meas := n.meas.standDown
    track := n.track.abandonRun.clearArrival
    sched := { n.sched.disarm with profile := none }
    gap := { n.gap.retract c.config with profileTrim := 0, clampMark := false, waiting := none }
    memb := { n.memb with graceTimer := none }
    trip := { n.trip with tripEntries := satInc n.trip.tripEntries } }

/-- A PRESET in the request table is replied ABORTED (R53). -/
def abortPreset (c : Settings) (n : Node) : Node := endEntryDeferred c isPreset .aborted [] n

/-- Trip entry (R167). -/
def enterTripped (c : Settings) (n : Node) : Node := abortPreset c (enterTrippedQuietly c n)

/-- Trip entry outside TRIPPED and LOCKOUT (R167). -/
def enterTrippedIfNot (c : Settings) (n : Node) : Node :=
  if n.seq.stand.stopped then n else enterTripped c n

/-! ## Origins (R163, R165) -/

/-- A new origin placed by the first row of R165 that applies. -/
def TripUnit.placeOrigin (o : Origin) (t : TripUnit) : TripUnit :=
  match t.active, t.pending with
  | none, _ => { t with active := some o }
  | some _, none => { t with pending := some o }
  | some _, some _ => { t with dropped := satInc t.dropped }

/-- The own origin of a local cause (R163). -/
def ownOrigin (c : Settings) (kind detail : Byte) (n : Node) : Origin :=
  { station := c.station, standIndex := c.config.standIndex, causeKind := kind, detail := detail,
    number := n.track.current }

/-- The TRIP frame of an own origin (R163, Table 12-3). -/
def tripFrame (o : Origin) : OwnFrame :=
  { kind := .trip
    dest := stationAll
    payload := byte o.station :: byte o.standIndex :: o.causeKind :: o.detail :: halfBytes o.number
    fatal := false }

/-- A TRIP frame offered: it takes the trip slot, whatever it held (R16). -/
def offerTrip (c : Settings) (o : Origin) (n : Node) : Node :=
  pump c { n with ring := { n.ring with tripSlot := some (tripFrame o) } }

/-- An own origin placed and its TRIP frame offered (R163, R165). -/
def placeOwn (c : Settings) (o : Origin) (n : Node) : Node :=
  offerTrip c o { n with trip := n.trip.placeOrigin o }

/-- LOCKOUT entry (R174): the record, supervision and SERVO_EN stay. -/
def enterLockout (n : Node) : Node := { n with seq := { n.seq with stand := .lockout } }

/-- A local cause, up to the trip entry it makes (R163). -/
def takeCause (c : Settings) (kind detail : Byte) (n : Node) : Node :=
  if n.trip.recorded c.station then
    { n with trip := { n.trip with localRepeats := satInc n.trip.localRepeats } }
  else enterTrippedIfNot c (placeOwn c (ownOrigin c kind detail n) n)

/-- A local cause taken by the Trip Unit; an actuator fault in TRIPPED goes on to LOCKOUT (R163,
R174). -/
def localCause (c : Settings) (kind detail : Byte) (actuator : Bool) (n : Node) : Node :=
  if n.seq.stand = .starting then n
  else if actuator && n.seq.stand = .tripped then enterLockout (takeCause c kind detail n)
  else takeCause c kind detail n

/-! ## Holds (R116 to R118) -/

/-- A hold cause set: the first starts the hold and freezes the trims, and RING starts the grace
timer (R116, R117, R39). -/
def setHold (c : Settings) (k : HoldCause) (n : Node) : Node :=
  if !n.seq.stand.strip || n.seq.holds.has k then n
  else
    let first := !n.seq.holds.any
    { n with
      seq := { n.seq with
        holds := n.seq.holds.put k true
        holdCount := if first then satInc n.seq.holdCount else n.seq.holdCount }
      gap := if first then
          { n.gap with frozenTrim := n.gap.gapTrim, frozenProfile := n.gap.profileTrim }
        else n.gap
      memb := if k = .ring then { n.memb with graceTimer := some c.config.ringBreakGrace }
        else n.memb }

/-- A hold cause taken from the set, without the reassembly of a hold end. -/
def dropHold (k : HoldCause) (n : Node) : Node :=
  { n with
    seq := { n.seq with holds := n.seq.holds.put k false }
    memb := if k = .ring then { n.memb with graceTimer := none } else n.memb }

/-- A recovery (R118): the cause is cleared, and the last one to go in a strip state is hold end. -/
def clearHold (c : Settings) (k : HoldCause) (n : Node) : Node :=
  if !n.seq.holds.has k then n
  else if n.seq.stand.strip && !(dropHold k n).seq.holds.any then reassembleNow c (dropHold k n)
  else dropHold k n

/-! ## Raising a fault (R179) -/

/-- Steps 1 and 2 of R179. -/
def countEvent (ev : FaultEvent) (n : Node) : Node := { n with flt := n.flt.count ev }

/-- Step 3 of R179 (R182). -/
def routeEvent (c : Settings) (ev : FaultEvent) (n : Node) : Node :=
  match ev.cls with
  | .correctable => n
  | .fatal => localCause c causeFault (byte ev.code.number) ev.code.actuator n
  | .nonfatal =>
    match c.config.route with
    | .trip => localCause c causeFault (byte ev.code.number) false n
    | .hold =>
      match ev.code.holdCause with
      | some k => setHold c k n
      | none => n

/-- Step 4 of R179 (R183, R184). -/
def reportEvent (c : Settings) (ev : FaultEvent) (n : Node) : Node :=
  let r := Rep.report (ctxOf c n) ev ⟨n.ring, n.flt⟩
  { n with ring := r.ring, flt := r.flt }

/-- A fault event handled whole, and then what its handling raised (R179). -/
def handleEvent (c : Settings) (ev : FaultEvent) (n : Node) : Node :=
  settle c (reportEvent c ev (routeEvent c ev (countEvent ev n)))

/-- A fault raised now, with its class and values of now; events that wait go before it. -/
def raise (c : Settings) (code : FaultCode) (n : Node) : Node :=
  handleEvent c (eventOf code n) (settle c n)

/-- Several faults raised by one event, each with the class and the values it was raised with,
handled one after the other (R179, log 18). -/
def raiseAll (c : Settings) (codes : List FaultCode) (n : Node) : Node :=
  (codes.map (fun k => eventOf k n)).foldl (fun m ev => handleEvent c ev m) (settle c n)

end Sys2Proof.Machine
end

