-- ==== Sys2Proof/Machine/MembershipOps.lean ====
section
/-! DEFINITION. Ring Membership (spec 02) and the Ring Port's dealings with returns, losses and
forwarding (R7 to R10, R21, R22). -/

namespace Sys2Proof.Machine

/-! ## Changes of ring state -/

/-- A ring state entered: the consecutive-loss count is 0 (R22). -/
def setRing (s : RingState) (n : Node) : Node :=
  { n with memb := { n.memb with ring := s }, ring := { n.ring with lossCount := 0 } }

/-- The phase flags and RING_OPEN cleared (R22, R31). -/
def Membership.clearFlags (m : Membership) : Membership :=
  { m with lockOk := false, claimOk := false, neighboursOk := false, ringOpen := false }

/-- The beacon timer and the seek timer stopped. -/
def Membership.stopTimers (m : Membership) : Membership :=
  { m with beaconTimer := none, seekTimer := none }

/-- Entry to DARK (R25, R23). -/
def enterDark (c : Settings) (n : Node) : Node :=
  let n := setRing .dark n
  pump c { n with memb := n.memb.clearFlags.stopTimers, ring := { n.ring with outstanding := [] }.flush }

/-- The CLAIM (R26). -/
def claimFrame (c : Settings) : OwnFrame :=
  { kind := .claim, dest := stationAll, payload := [byte c.config.standIndex], fatal := false }

/-- A CLAIM offered (R26). -/
def offerClaim (c : Settings) (n : Node) : Node := offerNow c (claimFrame c) n

/-- Entry to CLAIMING (R26). -/
def enterClaiming (c : Settings) (n : Node) : Node :=
  let n := setRing .claiming n
  offerClaim c { n with memb := { n.memb with lockOk := true, beaconTimer := none }, ring := n.ring.flush }

/-- A BEACON with the node's values now (R33). -/
def beaconFrame (c : Settings) (n : Node) : OwnFrame :=
  { kind := .beacon
    dest := stationAll
    payload := byte c.config.standIndex :: n.seq.stand.code :: beaconFlags n ::
      byte n.sched.activeId :: (halfBytes n.track.lastClosed ++
        [byte (match n.trip.active with | some o => o.station | none => 0)])
    fatal := false }

/-- A BEACON offered and the beacon timer started (R32). -/
def sendBeacon (c : Settings) (n : Node) : Node :=
  offerNow c (beaconFrame c n)
    { n with memb := { n.memb with beaconTimer := some c.config.beaconInterval } }

/-- Entry to SEEKING on a clean claim return (R27, R29). -/
def enterSeeking (c : Settings) (n : Node) : Node :=
  let n := setRing .seeking n
  sendBeacon c (pump c { n with memb := { n.memb with
    claimOk := true
    seekTimer := some (25 * c.config.beaconInterval)
    upstream := { n.memb.upstream with heardInSeek := false }
    downstream := { n.memb.downstream with heardInSeek := false } } })

/-- Entry to JOINED: NEIGHBOURS_OK where both neighbours were heard, and the break record NONE, which
clears hold cause RING (R29, R37, R38). -/
def enterJoined (c : Settings) (both : Bool) (n : Node) : Node :=
  let n := setRing .joined n
  clearHold c .ring (pump c { n with memb := { n.memb with
    seekTimer := none, neighboursOk := both, breakRecord := .none } })

/-- Entry to BROKEN (R30, R37). -/
def enterBroken (c : Settings) (n : Node) : Node :=
  let n := setRing .broken n
  raise c .ringBreak (pump c { n with
    memb := { n.memb.clearFlags with breakRecord := .link }
    ring := { n.ring with outstanding := [] } })

/-- Entry to CONFLICT (R28, R23). -/
def enterConflict (c : Settings) (n : Node) : Node :=
  let n := setRing .conflict n
  raise c .stationConflict (pump c { n with
    memb := n.memb.stopTimers, ring := { n.ring with outstanding := [] }.flush })

/-- A carrier-lock report (R24, R25, R30). -/
def carrierLocked (c : Settings) (n : Node) : Node :=
  if n.memb.carrierLocked then n
  else
    let n := { n with memb := { n.memb with carrierLocked := true } }
    match n.memb.ring with
    | .dark => if n.seq.stand = .starting then n else enterClaiming c n
    | .broken => enterClaiming c n
    | _ => n

/-- A carrier-loss report (R24, R25, R27, R29, R30). -/
def carrierLost (c : Settings) (n : Node) : Node :=
  if !n.memb.carrierLocked then n
  else
    let n := { n with memb := { n.memb with
      carrierLocked := false, carrierLossCount := satInc n.memb.carrierLossCount } }
    match n.memb.ring with
    | .claiming | .seeking => enterDark c n
    | .joined => enterBroken c n
    | _ => n

/-! ## Claim returns and losses (R27) -/

/-- A claim loss: a resend in CLAIMING, otherwise nothing. -/
def claimLoss (c : Settings) (n : Node) : Node :=
  if n.memb.ring = .claiming then
    offerClaim c { n with memb := { n.memb with claimResends := satInc n.memb.claimResends } }
  else n

/-- A claim return in CLAIMING, otherwise nothing. -/
def claimReturn (c : Settings) (objected : Bool) (n : Node) : Node :=
  if n.memb.ring = .claiming then (if objected then enterConflict c n else enterSeeking c n)
  else n

/-! ## Own frames that come back (R8, R9) -/

/-- RING_OPEN cleared by a return: a break record of OPEN becomes NONE, which clears RING (R9, R37,
R38). -/
def closeRing (c : Settings) (n : Node) : Node :=
  if n.memb.breakRecord = .ringOpen then
    clearHold c .ring { n with memb := { n.memb with ringOpen := false, breakRecord := .none } }
  else { n with memb := { n.memb with ringOpen := false } }

/-- A return proves the ring closed (R9). -/
def ringProved (c : Settings) (n : Node) : Node :=
  let n := { n with ring := { n.ring with lossCount := 0 } }
  if n.memb.ringOpen then closeRing c n else n

/-- The oldest entry taken off the outstanding list, which may make the queue eligible (R17, R20). -/
def dropOldest (c : Settings) (n : Node) : Node :=
  pump c { n with ring := { n.ring with outstanding := n.ring.outstanding.drop 1 } }

/-- The oldest entry removed as lost behind a matching return; a CLAIM's loss is reported (R8, R9). -/
def loseOlder (c : Settings) (e : OutEntry) (n : Node) : Node :=
  let n := raise c .ownFrameLost (dropOldest c n)
  if e.kind = .claim then claimLoss c n else n

/-- The entries before the first with a tag, and that entry. -/
def splitAtTag (tag : Byte) : List OutEntry → Option (List OutEntry × OutEntry)
  | [] => none
  | e :: es =>
    if e.tag = tag then some ([], e)
    else (splitAtTag tag es).map (fun p => (e :: p.1, p.2))

/-- A stripped frame's tag matched against the outstanding list (R8). -/
def matchReturn (c : Settings) (tag : Byte) (n : Node) : Node :=
  match splitAtTag tag n.ring.outstanding with
  | none => { n with ring := { n.ring with unmatchedCount := satInc n.ring.unmatchedCount } }
  | some (older, _) => dropOldest c (older.foldl (fun m e => loseOlder c e m) n)

/-- An own frame of a kind other than CLAIM comes back (R8, R9). -/
def returnOwn (c : Settings) (tag : Byte) (n : Node) : Node := ringProved c (matchReturn c tag n)

/-- The outstanding list holds a CLAIM entry. -/
def claimOut (n : Node) : Bool := n.ring.outstanding.any (fun e => e.kind = .claim)

/-- The tag matches a CLAIM entry. -/
def matchesClaim (tag : Byte) (n : Node) : Bool :=
  match splitAtTag tag n.ring.outstanding with
  | some (_, e) => e.kind = .claim
  | none => false

/-! ## Forwarding (R10) -/

/-- A frame whose hop count has circled the ring (R10). -/
def isOrphan (f : Frame) : Bool := 32 ≤ f.hop + 1

/-- A frame forwarded (R10). -/
def forward (c : Settings) (f : Frame) (n : Node) : Node :=
  if isOrphan f then raise c .orphanRemoved n
  else if n.ring.passBuffer.length < 6 then
    pump c { n with ring := { n.ring with
      passBuffer := n.ring.passBuffer ++ [{ f with hop := f.hop + 1 }] } }
  else raise c .passOverrun n

/-- A CLAIM that carries this node's number (R6, R7). -/
def claimArrives (c : Settings) (f : Frame) (n : Node) : Node :=
  if n.seq.stand = .starting then forward c f n
  else if claimOut n then
    let hit := matchesClaim f.tag n
    let n := returnOwn c f.tag n
    if hit then claimReturn c f.objection n else n
  else raise c .claimObjected (forward c { f with objection := true } n)

/-! ## The return timeout (R21, R22) -/

/-- The return timeout in effect; none where no entry times out. -/
def returnLimit (c : Settings) (n : Node) : Option Nat :=
  if c.config.returnTimeout = 0 then (if n.memb.ring = .claiming then some 64 else none)
  else some c.config.returnTimeout

/-- A loss counted; the third in JOINED with RING_OPEN clear opens the ring (R22, R37). -/
def countLoss (c : Settings) (n : Node) : Node :=
  let n := { n with ring := { n.ring with lossCount := satInc n.ring.lossCount } }
  if n.ring.lossCount = 3 && n.memb.ring = .joined && !n.memb.ringOpen then
    raise c .ringBreak { n with memb := { n.memb with ringOpen := true, breakRecord := .ringOpen } }
  else n

/-- The oldest entry removed as lost by the return timeout (R21). -/
def timeOutOldest (c : Settings) (e : OutEntry) (n : Node) : Node :=
  let n := countLoss c (raise c .ownFrameLost (dropOldest c n))
  if e.kind = .claim then claimLoss c n else n

/-- The return timeout of an entry has elapsed by the node's clock. -/
def returnElapsed (c : Settings) (n : Node) (e : OutEntry) : Bool :=
  match e.sentAt, returnLimit c n with
  | some t, some limit => t + limit ≤ n.clock
  | _, _ => false

/-- Further entries whose own time has also elapsed are removed at once, up to `fuel` of them
(R21). -/
def timeOutMore (c : Settings) : Nat → Node → Node
  | 0, n => n
  | fuel + 1, n =>
    match n.ring.outstanding with
    | [] => n
    | e :: _ => if returnElapsed c n e then timeOutMore c fuel (timeOutOldest c e n) else n

/-- The return timeout of the oldest entry expires (R21). -/
def returnExpiry (c : Settings) (n : Node) : Node :=
  match n.ring.outstanding with
  | [] => n
  | e :: more =>
    if returnElapsed c n e then timeOutMore c more.length (timeOutOldest c e n) else n

/-! ## Neighbours (R29, R35) -/

/-- The record of a neighbour. -/
def Membership.record (m : Membership) : Neighbour → NeighbourRec
  | .upstream => m.upstream
  | .downstream => m.downstream

/-- The record of a neighbour replaced. -/
def Membership.putRecord (m : Membership) (w : Neighbour) (r : NeighbourRec) : Membership :=
  match w with
  | .upstream => { m with upstream := r }
  | .downstream => { m with downstream := r }

/-- A neighbour becomes LOST (R35). -/
def NeighbourRec.lose (r : NeighbourRec) : NeighbourRec :=
  { r with mark := .lost, timer := none, lostCount := satInc r.lostCount }

/-- A BEACON of a neighbour taken into its record (R34, R35). -/
def NeighbourRec.hear (c : Settings) (seeking : Bool) (info : BeaconInfo) (r : NeighbourRec) :
    NeighbourRec :=
  { r with
    lastBeacon := some info
    heardInSeek := seeking || r.heardInSeek
    mark := .live
    timer := some (4 * c.config.beaconInterval)
    recoveryCount := if r.mark = .lost then satInc r.recoveryCount else r.recoveryCount }

/-- Both liveness marks are LIVE. -/
def Membership.bothLive (m : Membership) : Bool :=
  m.upstream.mark = .live && m.downstream.mark = .live

/-- Steps 1 to 3 of R34 for one neighbour. -/
def hearNeighbour (c : Settings) (w : Neighbour) (info : BeaconInfo) (n : Node) : Node :=
  let r := n.memb.record w
  let m := { n with memb := n.memb.putRecord w (r.hear c (n.memb.ring = .seeking) info) }
  if r.mark = .lost && m.memb.bothLive then clearHold c .neighbour m else m

/-- The liveness timer of a neighbour expires (R35). A BEACON taken first has started it again. -/
def livenessExpiry (c : Settings) (w : Neighbour) (n : Node) : Node :=
  if timerOut (n.memb.record w).timer then
    raise c .neighbourLost { n with memb := n.memb.putRecord w (n.memb.record w).lose }
  else n

/-- A neighbour not heard in the seek and never heard before (R29). -/
def NeighbourRec.unheardInSeek (r : NeighbourRec) : Bool := !r.heardInSeek && r.mark = .unheard

/-- A record at seek timer expiry: one never heard becomes LOST "as for an expiry" of its liveness timer
(R29); that its lost count grows with it is the model's choice (R35, log 38). -/
def NeighbourRec.seekEnds (r : NeighbourRec) : NeighbourRec := if r.unheardInSeek then r.lose else r

/-- The seek timer expires (R29). -/
def seekExpiry (c : Settings) (n : Node) : Node :=
  if n.memb.ring = .seeking && timerOut n.memb.seekTimer then
    let n := enterJoined c false n
    let codes :=
      (if n.memb.upstream.unheardInSeek then [FaultCode.neighbourLost] else []) ++
      (if n.memb.downstream.unheardInSeek then [FaultCode.neighbourLost] else [])
    raiseAll c codes { n with memb := { n.memb with
      upstream := n.memb.upstream.seekEnds, downstream := n.memb.downstream.seekEnds } }
  else n

/-- The ring break grace timer expires (R39). A RING cleared first has stopped it, and one set afresh has
started it from the full grace. -/
def graceExpiry (c : Settings) (n : Node) : Node :=
  if timerOut n.memb.graceTimer then
    let n := { n with memb := { n.memb with graceTimer := none } }
    if n.seq.holds.ring then raise c .ringBreakExpired n else n
  else n

/-- The beacon timer expires (R32). -/
def beaconExpiry (c : Settings) (n : Node) : Node :=
  if timerOut n.memb.beaconTimer then sendBeacon c n else n

end Sys2Proof.Machine
end

