-- ==== Sys2Proof/Machine/ExitOps.lean ====
section
/-! DEFINITION. The exit side of the Tracking Unit (spec 05): gauge segments, the exit track and
publication. -/

namespace Sys2Proof.Machine

/-- A length as a difference of positions. -/
def mm (k : Nat) : Pos := BitVec.ofNat 32 k

/-! ## Publication (R89 to R92) -/

/-- The SEG of an exit record (R89, Table 12-3). -/
def segFrame (c : Settings) (r : ExitRecord) (remaining : Nat) : OwnFrame :=
  { kind := .seg
    dest := byte c.config.downstream
    payload :=
      halfBytes r.number ++ halfBytes r.coil ++ intBytes (r.deviation.getD 0) ++
        [byte r.sampleCount, packFlags [r.head, r.weld, r.tail, r.offgauge, r.beyond]] ++
        natBytes remaining ++ [byte r.scheduleId, byte c.config.standIndex]
    fatal := false }

/-- The MARK of a published segment (R91, Table 12-3). -/
def markFrame (c : Settings) (number : Half) : OwnFrame :=
  { kind := .mark
    dest := byte c.config.downstream
    payload := halfBytes number ++ natBytes c.config.segLength ++
      [byte c.config.markInterval, byte c.config.standIndex]
    fatal := false }

/-- A SEG or MARK offered; a refusal is counted (R89, R91). -/
def offerTracked (c : Settings) (o : OwnFrame) (n : Node) : Node :=
  let m := if offerRefused n o then
      { n with track := { n.track with counts := { n.track.counts with
        publishRefused := satInc n.track.counts.publishRefused } } }
    else n
  offer c o m

/-- A MARK follows a segment of this number (R91). -/
def markFollows (c : Settings) (number : Half) : Bool :=
  c.config.markInterval ≠ 0 && number.toNat % c.config.markInterval = 0

/-- The head record published with a remaining distance; a MARK follows where `onTime` (R89, R91). -/
def publishHead (c : Settings) (remaining : ExitRecord → Nat) (onTime : Bool) (n : Node) : Node :=
  match n.track.exitTrack with
  | [] => n
  | r :: rest =>
    let n := offerTracked c (segFrame c r (remaining r))
      { n with track := { n.track with
        exitTrack := rest
        counts := { n.track.counts with published := satInc n.track.counts.published } } }
    if onTime && markFollows c r.number then offerTracked c (markFrame c r.number) n else n

/-- The true remaining distance of a record (R90). -/
def trueRemaining (c : Settings) (exitCount : Pos) (r : ExitRecord) : Nat :=
  if reaches exitCount r.spanStart then c.config.biteDistance - (exitCount - r.spanStart).toNat
  else c.config.biteDistance

/-- Every record whose due count is reached published, oldest first, at most `fuel` of them. -/
def publishDue (c : Settings) (remaining : ExitRecord → Nat) : Nat → Node → Node
  | 0, n => n
  | fuel + 1, n =>
    match n.track.exitTrack with
    | [] => n
    | r :: _ =>
      if reaches n.meas.exitCount r.due then
        publishDue c remaining fuel (publishHead c remaining true n)
      else n

/-- The records due at a change of the EXIT count published (R89). -/
def publishOnCount (c : Settings) (n : Node) : Node :=
  publishDue c (fun _ => c.config.publishLead) n.track.exitTrack.length n

/-- The tail flush (R92): every record published with its true remaining distance and no MARK. -/
def flushTrack (c : Settings) : Nat → Node → Node
  | 0, n => n
  | fuel + 1, n =>
    flushTrack c fuel (publishHead c (trueRemaining c n.meas.exitCount) false n)

/-! ## Opening a segment (R80, R81, R88) -/

/-- The position at the end of a segment's span. -/
def OpenSegment.spanEnd (c : Settings) (g : OpenSegment) : Pos := g.spanStart + mm c.config.segLength

/-- The weld marks a segment takes, oldest first (R88). -/
def takeWelds (c : Settings) : List WeldMark → OpenSegment → List WeldMark × OpenSegment
  | [], g => ([], g)
  | w :: ws, g =>
    if passed (g.spanEnd c) w.at_ then takeWelds c ws { g with weld := true, coil := w.coil }
    else (w :: ws, g)

/-- The open segment takes the weld marks it may, and the exit coil number follows (R88). -/
def Tracking.judgeWelds (c : Settings) (t : Tracking) : Tracking :=
  match t.openSeg with
  | none => t
  | some g =>
    let r := takeWelds c t.weldList g
    { t with weldList := r.1, openSeg := some r.2,
             exitCoil := if r.2.weld then r.2.coil else t.exitCoil }

/-- A segment of an index opens (R80, R81). -/
def Tracking.openSegment (c : Settings) (index : Nat) (t : Tracking) : Tracking :=
  ({ t with
    nextNumber := t.nextNumber + 1
    openSeg := some
      { number := t.nextNumber, index := index
        spanStart := t.origin + mm (index * c.config.segLength)
        coil := t.exitCoil, head := index = 0, weld := false, good := 0, sum := 0,
        suspect := 0 } }).judgeWelds c

/-! ## Closing a segment (R86, R87, R90) -/

/-- The true mean times the GOOD count: the sum of thicknesses minus the target for each sample. -/
def meanTimesGood (g : OpenSegment) (r : Schedule) : Int := (g.sum : Int) - r.exitTarget * g.good

/-- The exit record of a closing segment (R86, R87). -/
def closeRecord (c : Settings) (tail : Bool) (id : Nat) (r : Schedule) (g : OpenSegment) : ExitRecord :=
  let m := meanTimesGood g r
  { number := g.number
    coil := g.coil
    deviation := if g.good = 0 then none else some (heldInt (-2000) 2000 (m.tdiv g.good))
    sampleCount := min g.good 255
    head := g.head
    weld := g.weld
    tail := tail
    offgauge := g.good ≠ 0 && r.offGauge * g.good < m.natAbs
    beyond := g.good ≠ 0 && 2000 * g.good < m.natAbs
    scheduleId := id
    spanStart := g.spanStart
    due := g.spanStart + mm (c.config.biteDistance - c.config.publishLead) }

/-- A full exit track gives up its head early (R90). That EXIT_TRACK_FULL is handled whole here, after the head's
SEG and before the closing record joins, the monitor update and the tail flush, is the model's choice (log 53). -/
def makeRoom (c : Settings) (n : Node) : Node :=
  if 48 ≤ n.track.exitTrack.length then
    raise c .exitTrackFull (publishHead c (trueRemaining c n.meas.exitCount) false n)
  else n

/-- A record joins the exit track; where its due count is already reached it is published at once,
after those ahead of it that are due (R90). -/
def joinTrack (c : Settings) (r : ExitRecord) (n : Node) : Node :=
  let n := makeRoom c n
  let n := { n with track := { n.track with exitTrack := n.track.exitTrack ++ [r] } }
  if reaches n.meas.exitCount r.due then
    publishDue c (trueRemaining c n.meas.exitCount) n.track.exitTrack.length n
  else n

/-- The open segment closes (R86, R87). A run never lacks an ACTIVE schedule (R86). -/
def closeSegment (c : Settings) (tail : Bool) (n : Node) : Node :=
  match n.track.openSeg, n.sched.active with
  | some g, some (id, r) =>
    let x := closeRecord c tail id r g
    let n := joinTrack c x { n with track := { n.track with
      openSeg := none
      lastClosed := g.number
      counts := { n.track.counts with closed := satInc n.track.counts.closed } } }
    if n.seq.stand = .rolling then monitorUpdate c x.deviation n else n
  | _, _ => n

/-- The open segment closes and the next one of the run opens. -/
def closeAndOpen (c : Settings) (n : Node) : Node :=
  match n.track.openSeg with
  | none => n
  | some g =>
    let n := closeSegment c false n
    { n with track := n.track.openSegment c (g.index + 1) }

/-- The open segment and its followers close `k` times. -/
def closeTimes (c : Settings) : Nat → Node → Node
  | 0, n => n
  | k + 1, n => closeTimes c k (closeAndOpen c n)

/-- How many segments close for a position at or beyond the open span's end (R84, R85). -/
def closings (c : Settings) (g : OpenSegment) (p : Pos) : Nat :=
  if reaches p (g.spanEnd c) then (p - g.spanEnd c).toNat / c.config.segLength + 1 else 0

/-- Segments close until the open span contains a position or lies beyond it (R84, R85). -/
def closeUpTo (c : Settings) (p : Pos) (n : Node) : Node :=
  match n.track.openSeg with
  | none => n
  | some g => closeTimes c (closings c g p) n

/-- The condition of R85: the FIFO empty and the EXIT count minus G at the span end. -/
def closeOnCount (c : Settings) (n : Node) : Node :=
  if n.meas.fifo.isEmpty then closeUpTo c (n.meas.exitCount - mm c.config.gaugeOffset) n else n

/-! ## Taking samples (R83) -/

/-- A sample added to the open segment (R83). -/
def addSample (x : Sample) (t : Tracking) : Tracking :=
  match t.openSeg with
  | none => t
  | some g =>
    if x.good && g.good < 65535 then
      { t with openSeg := some { g with good := g.good + 1, sum := g.sum + x.thickness } }
    else
      { t with openSeg := some { g with suspect := satInc g.suspect },
               counts := { t.counts with suspect := satInc t.counts.suspect } }

/-- A sample sorted against the open segment (R83, R84). -/
def sortSample (c : Settings) (x : Sample) (n : Node) : Node :=
  match n.track.openSeg with
  | none => n
  | some g =>
    let p := x.stamp - mm c.config.gaugeOffset
    if !reaches p g.spanStart then
      { n with track := { n.track with counts := { n.track.counts with
        stale := satInc n.track.counts.stale } } }
    else
      let n := closeUpTo c p n
      { n with track := addSample x n.track }

/-- The FIFO's head removed, with the effect on HOLD (R64). -/
def Meas.takeHead (m : Meas) : Meas :=
  let rest := m.fifo.drop 1
  { m with fifo := rest, hold := if rest.length = 8 then false else m.hold }

/-- A take, while a segment is open and the FIFO holds samples (R83, R85). -/
def takeSample (c : Settings) (n : Node) : Node :=
  match n.track.openSeg, n.meas.fifo with
  | some _, x :: _ => closeOnCount c (sortSample c x { n with meas := n.meas.takeHead })
  | _, _ => n

/-! ## Runs (R81, R92) -/

/-- A run begins (R81). -/
def Tracking.beginRun (c : Settings) (exitCount : Pos) (t : Tracking) : Tracking :=
  ({ t with running := true, origin := exitCount, weldList := [],
            exitCoil := t.entryCoil }).openSegment c 0

/-- A run ends on load-off in TAILING (R92). -/
def endRun (c : Settings) (n : Node) : Node :=
  let n := closeSegment c true n
  let n := flushTrack c n.track.exitTrack.length n
  { n with track := { n.track with openSeg := none, weldList := [], running := false } }

end Sys2Proof.Machine
end

