-- ==== Sys2Proof/Machine/StandOps.lean ====
section
/-! DEFINITION. The Stand Sequencer's entries and events (spec 06): each entry with the reactions of
every block (Table 6-2). -/

namespace Sys2Proof.Machine

/-- The Gap Controller at entry to QUIET from a state other than STARTING (R110, R147, R148, R159). -/
def GapControl.enterQuiet (c : Settings) (fromTripped servoFlt : Bool) (g : GapControl) : GapControl :=
  let g := { g with base := some c.config.standbyGap, ff := 0, monitor := 0, profileTrim := 0,
                    clampMark := false, waiting := none }
  let g := if fromTripped then
      { g with supervision := .idle, timer := none, servoEn := g.servoEn || !servoFlt }
    else g
  g.refer c.config c.config.standbyGap

/-- The reactions to entry to QUIET from a state other than STARTING (R110). -/
def enterQuietQuietly (c : Settings) (n : Node) : Node :=
  { n with
    seq := { n.seq with stand := .quiet, holds := Holds.empty }
    memb := { n.memb with graceTimer := none }
    dir := { n.dir with changed := ChangedFlags.clear }
    meas := n.meas.standDown
    track := n.track.clearArrival
    sched := { n.sched with profile := none }
    gap := n.gap.enterQuiet c (n.seq.stand = .tripped) n.pins.servoFlt }

/-- Entry to QUIET from a state other than STARTING; from TRIPPED with SERVO_FLT asserted,
SERVO_FAULT is raised again (R110, R148). -/
def enterQuiet (c : Settings) (n : Node) : Node :=
  if n.seq.stand = .tripped && n.pins.servoFlt then raise c .servoFault (enterQuietQuietly c n)
  else enterQuietQuietly c n

/-- The conditions of leaving TRIPPED judged (R172). -/
def judgeTripExit (c : Settings) (n : Node) : Node :=
  if n.mayLeaveTripped then enterQuiet c n else n

/-- Entry to PRESET (R108). -/
def enterPreset (c : Settings) (n : Node) : Node :=
  { n with
    seq := { n.seq with stand := .preset }
    gap := { n.gap with base := some n.threadGap }.startMove c.config n.threadGap }

/-- Entry to READY (R109). -/
def enterReady (n : Node) : Node := { n with seq := { n.seq with stand := .ready } }

/-- The faults of the conditions that stand at entry to THREADING (R36, R77). -/
def standingFaults (n : Node) : List FaultCode :=
  (if n.memb.breakRecord ≠ .none then [FaultCode.ringBreak] else []) ++
  (if n.memb.upstream.mark = .lost then [FaultCode.neighbourLost] else []) ++
  (if n.memb.downstream.mark = .lost then [FaultCode.neighbourLost] else []) ++
  (if n.meas.forceOS.valid then [] else [FaultCode.forceSensor]) ++
  (if n.meas.forceDS.valid then [] else [FaultCode.forceSensor]) ++
  (if n.meas.tiltMark then [FaultCode.tiltLimit] else [])

/-- Entry to THREADING up to the standing conditions (R112). -/
def beginThreading (c : Settings) (n : Node) : Node :=
  let n := { n with
    seq := { n.seq with stand := .threading }
    track := n.track.beginRun c n.meas.exitCount
    meas := { n.meas with exitPeak := n.meas.exitCount } }
  reassembleNow c (setBase n.threadGap n)

/-- Entry to THREADING (R112). -/
def enterThreading (c : Settings) (n : Node) : Node :=
  let n := beginThreading c n
  raiseAll c (standingFaults n) n

/-- Entry to ROLLING up to a GAUGE_WITHDRAWN (R113). -/
def beginRolling (c : Settings) (n : Node) : Node :=
  let n := { n with
    seq := { n.seq with stand := .rolling }
    track := { n.track with baseline := none }
    gap := { n.gap with monitor := 0 } }
  reassembleNow c (setBase n.rollGap n)

/-- Entry to ROLLING (R113, R66). -/
def enterRolling (c : Settings) (n : Node) : Node :=
  let n := beginRolling c n
  if n.pins.measuring then n else raise c .gaugeWithdrawn n

/-- Entry to TAILING (R114). -/
def enterTailing (c : Settings) (n : Node) : Node :=
  let n := { n with seq := { n.seq with stand := .tailing }, sched := n.sched.disarm }
  reassembleNow c (setBase n.rollGap n)

/-- A load-on (R111). -/
def loadOnEvent (c : Settings) (n : Node) : Node :=
  match n.seq.stand with
  | .ready => enterThreading c n
  | .quiet | .preset => raise c .unexpectedLoad n
  | _ => n

/-- A load-off (R115). -/
def loadOffEvent (c : Settings) (n : Node) : Node :=
  match n.seq.stand with
  | .tailing => enterQuiet c (settle c (endRun c n))
  | .threading | .rolling => raise c .unexpectedLoad n
  | _ => n

/-- A tail handed over (R114). -/
def tailHanded (c : Settings) (n : Node) : Node :=
  match n.seq.stand with
  | .rolling | .threading => enterTailing c n
  | .ready | .tailing => { n with seq := { n.seq with tailIgnored := satInc n.seq.tailIgnored } }
  | _ => n

/-- The sink's BEACON handed to the Sequencer (R113). -/
def sinkBeacon (c : Settings) (info : BeaconInfo) (n : Node) : Node :=
  if n.seq.stand = .threading && info.stripPresent &&
      (info.standState = StandState.code .threading || info.standState = StandState.code .rolling)
  then enterRolling c n
  else n

end Sys2Proof.Machine
end

