-- ==== Sys2Proof/Machine/EntryOps.lean ====
section
/-! DEFINITION. The entry side of the Tracking Unit (spec 05), with what an application sets going:
the coil change and the flying change (R132, R133), the trim profile (R134), and the feedforward
term (R140, R141). -/

namespace Sys2Proof.Machine

/-! ## Coil change (R132, R133) -/

/-- The PENDING slot becomes ACTIVE and the ACTIVE one LOADED. -/
def Slot.fly : Slot → Slot
  | .pending id r => .active id r
  | .active id r => .loaded id r
  | s => s

/-- The flying change (R133): one reassembly from the new base and the zeroed terms. A DEMAND_CLAMPED that
the reassembly raises is handled at once, before the steps 2 to 4 of the coil change that follow (R132, R139,
log 40). -/
def flyingChange (c : Settings) (n : Node) : Node :=
  let sched := { n.sched with slots := mapFour Slot.fly n.sched.slots
                              flyingChanges := satInc n.sched.flyingChanges }
  let n := { n with sched := sched, gap := { n.gap with ff := 0, monitor := 0 } }
  reassembleNow c (setBase n.rollGap n)

/-- The flying change where the stand is ROLLING and a slot is PENDING. -/
def flyIfArmed (c : Settings) (n : Node) : Node :=
  if n.seq.stand = .rolling && n.sched.pendingSlot.isSome then flyingChange c n else n

/-- The report budget reset (R184). -/
def FaultUnit.resetBudget (f : FaultUnit) : FaultUnit :=
  { f with budgetCount := 0, budgetExceeded := false }

/-- The coil change of a WELD record (R132). -/
def coilChange (c : Settings) (number : Half) (n : Node) : Node :=
  let n := flyIfArmed c n
  reassembleUnheld c { n with
    dir := { n.dir with changed := ChangedFlags.clear }
    flt := n.flt.resetBudget
    sched := { n.sched with
      profile := some { weld := number, id := n.sched.activeId, nextEntry := 1 }
      coilChanges := satInc n.sched.coilChanges }
    gap := { n.gap with profileTrim := 0 } }

/-- A weld mark recorded in a strip state, and judged against the open segment (R88). -/
def recordWeld (c : Settings) (coil : Half) (n : Node) : Node :=
  if !n.seq.stand.strip then n
  else if n.track.weldList.length < 4 then
    let t : Tracking := { n.track with weldList := n.track.weldList ++ [⟨n.meas.exitCount, coil⟩] }
    { n with track := t.judgeWelds c }
  else
    { n with track := { n.track with counts := { n.track.counts with
      droppedWelds := satInc n.track.counts.droppedWelds } } }

/-! ## The trim profile (R134) -/

/-- Entry with an offset is reached by a segment number. -/
def entryReached (weld number : Half) (offset : Nat) : Bool :=
  (number - (weld + BitVec.ofNat 16 offset)).toNat < 32768

/-- Of the entries numbered from `i` on, the last that is reached, with its trim. -/
def lastReached (weld number : Half) : Nat → List (Nat × Int) → Option (Nat × Int)
  | _, [] => none
  | i, e :: es =>
    match lastReached weld number (i + 1) es with
    | some x => some x
    | none => if entryReached weld number e.1 then some (i, e.2) else none

/-- The profile of the schedule with an id. -/
def SchedStore.profileOf (s : SchedStore) (id : Nat) : List (Nat × Int) :=
  match (listFour s.slots).find? (fun x => x.id = some id) with
  | some x => (x.record.map (·.profile)).getD []
  | none => []

/-- An accepted segment number judged against the profile: the store, and the trim of a step. -/
def SchedStore.profileStep (number : Half) (s : SchedStore) : SchedStore × Option Int :=
  match s.profile with
  | none => (s, none)
  | some p =>
    match lastReached p.weld number p.nextEntry ((s.profileOf p.id).drop (p.nextEntry - 1)) with
    | some (i, trim) => ({ s with profile := some { p with nextEntry := i + 1 } }, some trim)
    | none => (s, none)

/-! ## Feedforward (R140, R141) -/

/-- What an application makes of the ff term. -/
inductive FfAct where
  | keep
  | becomes (v : Int)
  | look (deviation : Int)
deriving DecidableEq, Repr

/-- The table of R140 up to the lookup. -/
def ffJudge (n : Node) (deviation : Option Int) : FfAct :=
  if n.seq.stand = .rolling && !n.seq.holds.any then
    if !n.ffEffective then .becomes 0
    else match deviation with
      | none => .becomes 0
      | some d => .look d
  else .keep

/-- The head accepted with an ff term: the profile is judged, the demand is reassembled once where a
term that acts has changed, and the record leaves the queue (R140). -/
def accept (c : Settings) (r : ArrivalRecord) (ff : Int) (n : Node) : Node :=
  let p := n.sched.profileStep r.number
  let trim := p.2.getD n.gap.profileTrim
  let changed := ff ≠ n.gap.ff || trim ≠ n.gap.profileTrim
  let n := { n with
    sched := p.1
    gap := { n.gap with ff := ff, profileTrim := trim, waiting := none,
                        lastApplied := some (r.number, r.scheduleId) }
    track := { n.track with arrival := n.track.arrival.drop 1, headWaiting := false } }
  if changed then reassembleUnheld c n else n

/-- The head deferred for the fill of a tag (R141). -/
def deferHead (tag : CoefTag) (n : Node) : Node :=
  let g := n.gap
  let g := if g.filling tag then { g with waiting := some ⟨tag, false⟩ }
    else if g.room then { g.enqueue (.fill tag) with waiting := some ⟨tag, false⟩ }
    else { g with waiting := some ⟨tag, true⟩ }
  { n with gap := g, track := { n.track with headWaiting := true } }

/-- The first hand-over of a record (R96 step 4, R140). -/
def handOver (c : Settings) (r : ArrivalRecord) (n : Node) : Node :=
  match ffJudge n r.deviation with
  | .keep => accept c r n.gap.ff n
  | .becomes v => accept c r v n
  | .look d =>
    match n.gap.lookup n.presentTag with
    | (g, some k) => accept c r (perMille k.ff d) { n with gap := g }
    | (g, none) => deferHead n.presentTag { n with gap := g }

/-- The second hand-over, with what the fill installed (R97, R141). That COEF_UNUSABLE is handled before the
ff term becomes 0 and the demand is reassembled is the model's choice (log 50). -/
def handOverAgain (c : Settings) (installed : Option CoefRecord) (r : ArrivalRecord) (n : Node) : Node :=
  match ffJudge n r.deviation with
  | .keep => accept c r n.gap.ff n
  | .becomes v => accept c r v n
  | .look d =>
    match installed with
    | some k => accept c r (perMille k.ff d) n
    | none => accept c r 0 (raise c .coefUnusable n)

/-! ## Application (R96) -/

/-- The record behind the head, where the ENTRY count has passed its due position. -/
def lateBehind (n : Node) : Bool :=
  match n.track.arrival with
  | _ :: b :: _ => passed n.meas.entryCount b.due
  | _ => false

/-- Step 1 of R96. -/
def noteLate (c : Settings) (n : Node) : Node :=
  if lateBehind n then
    raise c .lateApplication { n with track := { n.track with counts := { n.track.counts with
      late := satInc n.track.counts.late } } }
  else n

/-- Step 2 of R96. -/
def noteApplied (r : ArrivalRecord) (n : Node) : Node :=
  { n with track := { n.track with
    entryCoil := r.coil
    counts := { n.track.counts with applied := satInc n.track.counts.applied } } }

/-- Step 3 of R96. -/
def handWeld (c : Settings) (r : ArrivalRecord) (n : Node) : Node :=
  if r.weld then recordWeld c r.coil (coilChange c r.number n) else n

/-- Step 5 of R96. -/
def handTail (c : Settings) (r : ArrivalRecord) (n : Node) : Node :=
  if r.tail then tailHanded c n else n

/-- The application of the head record (R96). -/
def applyRecord (c : Settings) (r : ArrivalRecord) (n : Node) : Node :=
  handTail c r (handOver c r (handWeld c r (noteApplied r (noteLate c n))))

/-- The head applied while its due position is reached, at most `fuel` records (R96, R97). -/
def applyDue (c : Settings) : Nat → Node → Node
  | 0, n => n
  | fuel + 1, n =>
    match n.track.arrival with
    | [] => n
    | r :: _ =>
      if !n.track.headWaiting && reaches n.meas.entryCount r.due then
        applyDue c fuel (applyRecord c r n)
      else n

/-- Every record that may be applied now is. -/
def applyAll (c : Settings) (n : Node) : Node := applyDue c n.track.arrival.length n

/-- The end of the fill of the waiting tag: the waiting head is handed over again and what stands
behind it is applied (R97). -/
def fillEnded (c : Settings) (tag : CoefTag) (installed : Option CoefRecord) (n : Node) : Node :=
  match n.gap.waiting, n.track.arrival with
  | some w, r :: _ =>
    if w.tag = tag then applyAll c (handOverAgain c installed r n) else n
  | _, _ => n

/-! ## Reception of SEG frames (R93 to R95) -/

/-- The due position of a SEG (R95). -/
def dueOf (c : Settings) (n : Node) (p : SegPayload) : Pos :=
  let due := n.meas.entryCount + mm (heldNat 0 12000 p.remaining.toNat) - mm c.config.ffLead
  match n.track.arrival.getLast? with
  | none => due
  | some t => if passed t.due due then t.due else due

/-- A SEG accepted into the arrival queue (R94, R95). -/
def joinArrival (c : Settings) (p : SegPayload) (n : Node) : Node :=
  { n with track := { n.track with
    arrival := n.track.arrival ++ [segRecord p (dueOf c n p)]
    expected := some (p.number + 1) } }

/-- A SEG accepted; a record that joins an empty queue is judged for application (R96). -/
def acceptSeg (c : Settings) (p : SegPayload) (n : Node) : Node :=
  if n.track.arrival.isEmpty then applyAll c (joinArrival c p n) else joinArrival c p n

/-- HEAD removes every record of the queue, and with a waiting head its waiting tag (R94, R141). -/
def clearForHead (n : Node) : Node :=
  { n with
    track := { n.track with
      arrival := [], headWaiting := false
      counts := { n.track.counts with
        arrivalDiscarded := satAdd n.track.counts.arrivalDiscarded n.track.arrival.length } }
    gap := { n.gap with waiting := none } }

/-- The missing numbers counted for a SEG ahead of E by `d` (R94; R103 for 1, log 12). -/
def gapCounted (d : Nat) : Nat := if d = 1 then 1 else d - 1

/-- A track gap counted and raised (R94). -/
def noteGap (c : Settings) (d : Nat) (n : Node) : Node :=
  raise c .trackGap { n with track := { n.track with counts := { n.track.counts with
    trackGaps := satAdd n.track.counts.trackGaps (gapCounted d) } } }

/-- The sequence check (R94). That TRACK_GAP is handled before the SEG joins the queue, and so before it is
applied at once on an empty one, is the model's choice (log 50). -/
def sequenceCheck (c : Settings) (p : SegPayload) (n : Node) : Node :=
  if p.flags.getLsbD 0 then acceptSeg c p (clearForHead n)
  else match n.track.expected with
    | none => acceptSeg c p n
    | some e =>
      let d := (p.number - e).toNat
      if 32768 ≤ d then
        { n with track := { n.track with counts := { n.track.counts with
          duplicates := satInc n.track.counts.duplicates } } }
      else if 16 ≤ n.track.arrival.length then raise c .arrivalFull n
      else if d = 0 then acceptSeg c p n
      else acceptSeg c p (noteGap c d n)

/-- The foreign-segment count (R93, R98). -/
def noteForeign (n : Node) : Node :=
  { n with track := { n.track with counts := { n.track.counts with
    foreign := satInc n.track.counts.foreign } } }

/-- The stand takes arrivals (R93). -/
def takesArrivals (n : Node) : Bool := n.seq.stand = .ready || n.seq.stand.strip

/-- A SEG handed to the Tracking Unit (R93). -/
def receiveSeg (c : Settings) (source : Byte) (p : SegPayload) (n : Node) : Node :=
  if source ≠ byte c.config.upstream then noteForeign n
  else if takesArrivals n then
    sequenceCheck c p { n with track := { n.track with counts := { n.track.counts with
      received := satInc n.track.counts.received } } }
  else
    { n with track := { n.track with counts := { n.track.counts with
      unexpected := satInc n.track.counts.unexpected } } }

/-! ## The cobble check (R98, R99) -/

/-- The advance of the ENTRY count since the baseline, signed (R99). -/
def markAdvance (n : Node) (count : Pos) : Int := (n.meas.entryCount - count).toInt

/-- The expected length of a MARK (R99, R196). -/
def expectedLength (p : MarkPayload) : Int := (markIntervalUsed p : Int) * markLength p

/-- The baseline takes a MARK. -/
def takeBaseline (p : MarkPayload) (n : Node) : Node :=
  { n with track := { n.track with baseline := some (p.number, n.meas.entryCount) } }

/-- A MARK compared with the baseline it follows (R99). -/
def compareMark (c : Settings) (p : MarkPayload) (count : Pos) (n : Node) : Node :=
  let advance := markAdvance n count
  let diff := advance - expectedLength p
  let m := takeBaseline p n
  let m := { m with track := { m.track with comparison := some (advance, diff) } }
  if c.config.cobbleTolerance < diff.natAbs then raise c .cobble m else m

/-- The cobble check (R98). -/
def cobbleCheck (c : Settings) (p : MarkPayload) (n : Node) : Node :=
  match n.track.baseline with
  | none => takeBaseline p n
  | some (number, count) =>
    if p.number = number + BitVec.ofNat 16 (markIntervalUsed p) then compareMark c p count n
    else takeBaseline p (raise c .markGap n)

/-- A MARK handed to the Tracking Unit (R98). -/
def receiveMark (c : Settings) (source : Byte) (p : MarkPayload) (n : Node) : Node :=
  if source ≠ byte c.config.upstream then noteForeign n
  else
    let n := { n with track := { n.track with counts := { n.track.counts with
      marksReceived := satInc n.track.counts.marksReceived } } }
    if n.seq.stand = .rolling then cobbleCheck c p n else n

end Sys2Proof.Machine
end

