-- ==== Sys2Proof/Machine/Reads.lean ====
section
/-! DEFINITION. What a read of each object returns, laid out by R197, in the order of the rows of the
object's table (log 22). -/

namespace Sys2Proof.Machine

/-- An item that can be absent: a presence byte, and its fields, sent as 0 when absent (R197). -/
def present {α : Type} (size : Nat) (fields : α → List Byte) (x : Option α) : List Byte :=
  match x with
  | some a => 1 :: fields a
  | none => 0 :: List.replicate size 0

/-- Each count as two bytes. -/
def counts (xs : List Nat) : List Byte := xs.flatMap natBytes

/-- Object 0, IDENT (R59, R197). -/
def readIdent (c : Settings) : List Byte :=
  [0x0F, 0x3A, 0x84, 0x40, 0x01, byte c.station, byte c.config.standIndex]

/-- Object 1, STAND_STATE (R119). -/
def readStandState (n : Node) : List Byte :=
  [n.seq.stand.code,
   packFlags [n.seq.holds.ring, n.seq.holds.neighbour, n.seq.holds.reverse, n.seq.holds.overload]] ++
  counts [n.seq.holdCount, n.seq.tailIgnored] ++
  [flagByte (!n.pins.loopClosed), packFlags [n.awaitingLoop, n.awaitingRetract, n.originsLost]]

/-- Object 2, STAND_COMMAND (R58). -/
def readStandCommand (n : Node) : List Byte := [flagByte (n.dir.table.any isPreset)]

/-- The number of the first slot, from `k` on, that is ACTIVE. -/
def activeSlotFrom : Nat → List Slot → Nat
  | _, [] => 0
  | k, .active _ _ :: _ => k
  | k, _ :: rest => activeSlotFrom (k + 1) rest

/-- The fields of section 1, and the number of profile entries (R137). -/
def scheduleFields (r : Schedule) : List Byte :=
  counts [r.entryTarget, r.exitTarget, r.threadGap, r.rollGap, r.gapMin, r.gapMax, r.forceLimit,
    r.offGauge] ++
  [byte r.pclass, packFlags [r.ffAllowed, r.monitorAllowed], byte r.profile.length]

/-- Object 3, ACTIVE_SCHEDULE (R137): the id and the slot number, 0 where no slot is ACTIVE, and the
fields of section 1 with the number of profile entries as one item that can be absent (R197, log 47). -/
def readActiveSchedule (n : Node) : List Byte :=
  natBytes n.sched.activeId ++ [byte (activeSlotFrom 1 (listFour n.sched.slots))] ++
  present 19 scheduleFields (n.sched.active.map (·.2))

/-- Object 4, NEXT_SCHEDULE (R137). -/
def readNextSchedule (n : Node) : List Byte :=
  [byte (match n.sched.pendingSlot with | some (id, _) => id | none => 0)]

/-- What a LOADING slot holds. -/
def Slot.load : Slot → Option Loading
  | .loading l => some l
  | _ => none

/-- One slot of SLOT_STATUS (R137): its state and id, the source and the section counts, absent but for
a LOADING slot, and the number of profile entries, absent for an EMPTY and a LOADING one (R197,
log 47). -/
def slotFields (s : Slot) : List Byte :=
  s.code :: natBytes (s.id.getD 0) ++
  present 3 (fun l => [l.source, byte l.declared, byte l.sections.length]) s.load ++
  present 1 (fun r => [byte r.profile.length]) s.record

/-- Object 5, SLOT_STATUS (R137). -/
def readSlotStatus (n : Node) : List Byte :=
  (listFour n.sched.slots).flatMap slotFields ++
  present 5 (fun p => halfBytes p.weld ++ natBytes p.id ++ [byte p.nextEntry]) n.sched.profile ++
  counts [n.sched.loadsCompleted, n.sched.loadsFailed, n.sched.loadTimeouts, n.sched.coilChanges,
    n.sched.flyingChanges]

/-- The tag of an operation, and whether it is a write. -/
def ParamOp.tagKind : ParamOp → CoefTag × Bool
  | .fill t => (t, false)
  | .write r _ => (r.tag, true)

/-- Object 10, GAP_STATUS (R157). -/
def readGapStatus (n : Node) : List Byte :=
  let g := n.gap
  present 2 natBytes g.base ++
  intBytes g.ff ++ intBytes g.monitor ++ intBytes g.gapTrim ++ intBytes g.profileTrim ++
  intBytes g.frozenTrim ++ intBytes g.frozenProfile ++
  wideIntBytes (if n.seq.stand.strip then g.unclamped else ((g.base.getD 0 : Nat) : Int)) ++
  [flagByte g.clampMark] ++ natBytes g.reference ++ natBytes n.meas.gap ++ [g.supervision.code] ++
  natBytes g.target ++ [flagByte g.servoEn, flagByte n.pins.servoFlt] ++
  counts [g.moves.started, g.moves.superseded, g.moves.completed, g.moves.timedOut, g.moves.abandoned,
    g.queue.length] ++
  present 3 (fun o => [Config.opKindCode o.tagKind.2, byte o.tagKind.1.pclass, byte o.tagKind.1.band])
    g.queue.head? ++
  present 3 (fun w => [byte w.tag.pclass, byte w.tag.band, flagByte w.wanted]) g.waiting

/-- Object 11, FORCE_STATUS (R78). -/
def readForceStatus (n : Node) : List Byte :=
  let m := n.meas
  counts [m.forceOS.value, m.forceDS.value, m.total] ++
  [flagByte m.forceOS.valid, flagByte m.forceDS.valid, flagByte m.loadOn, byte m.band,
   flagByte m.overload] ++
  counts [m.posOS.value, m.posDS.value, m.gap] ++ wideIntBytes m.tilt ++
  [flagByte m.posOS.valid, flagByte m.posDS.valid, flagByte m.tiltMark] ++
  posBytes m.entryCount ++ posBytes m.exitCount ++ present 4 posBytes m.reversal ++
  [flagByte n.pins.measuring, flagByte m.hold] ++
  counts [m.fifo.length, m.idleDiscards, m.withdrawnDiscards, m.flushedSamples, m.entryErrors,
    m.exitErrors]

/-- A signed value as two bytes; where no two bytes hold it, a free value (log 22). -/
def narrowBytes (v : Int) : List Byte :=
  if -32768 ≤ v && v ≤ 32767 then intBytes v else halfBytes (Config.wideValue v)

/-- The counts of R103, in its order. -/
def TrackCounts.list (k : TrackCounts) : List Nat :=
  [k.closed, k.published, k.exitDiscarded, k.publishRefused, k.stale, k.suspect, k.received, k.applied,
   k.arrivalDiscarded, k.trackGaps, k.duplicates, k.late, k.unexpected, k.foreign, k.marksReceived,
   k.droppedWelds]

/-- The numbers of the head and the tail of the exit track. -/
def trackEnds (t : List ExitRecord) : Option (Half × Half) :=
  match t.head?, t.getLast? with
  | some a, some b => some (a.number, b.number)
  | _, _ => none

/-- Object 12, TRACK_STATUS (R104); the open segment's span start is sent as four bytes (R197, log 52). -/
def readTrackStatus (n : Node) : List Byte :=
  let t := n.track
  [flagByte t.running] ++ posBytes t.origin ++
  present 11 (fun g => halfBytes g.number ++ posBytes g.spanStart ++ counts [g.good, g.suspect] ++
    [packFlags [g.head, g.weld]]) t.openSeg ++
  halfBytes t.nextNumber ++ halfBytes t.lastClosed ++ natBytes t.exitTrack.length ++
  present 4 (fun e => halfBytes e.1 ++ halfBytes e.2) (trackEnds t.exitTrack) ++
  natBytes t.weldList.length ++ halfBytes t.entryCoil ++ halfBytes t.exitCoil ++
  natBytes t.arrival.length ++
  present 7 (fun r => halfBytes r.number ++ posBytes r.due ++ [flagByte t.headWaiting]) t.arrival.head? ++
  present 2 halfBytes t.expected ++
  present 6 (fun b => halfBytes b.1 ++ posBytes b.2) t.baseline ++
  present 4 (fun k => narrowBytes k.1 ++ narrowBytes k.2) t.comparison ++
  counts t.counts.list

/-- The fields of an origin; its cause detail is sent as one byte (R176, R197, log 51). -/
def originFields (o : Origin) : List Byte :=
  [byte o.station, byte o.standIndex, o.causeKind, o.detail] ++ halfBytes o.number

/-- Object 14, TRIP_ORIGINS (R176, Table 9-1). -/
def readTripOrigins (c : Settings) (n : Node) : List Byte :=
  let t := n.trip
  present 6 originFields t.active ++ present 6 originFields t.pending ++ natBytes t.dropped ++
  [flagByte (t.recorded c.station)] ++
  counts [t.tripEntries, t.localRepeats, t.ignoredTrips, t.clearsTaken, t.clearsRefused]

/-- One line of TRIP_LINES (R176); its present level is sent as 1 for high and 0 for low (R197, log 42). -/
def lineFields (c : Settings) (n : Node) (k : Fin 4) : List Byte :=
  let x := getFour c.config.lines k
  [senseCode x.sense, flagByte x.enabled, flagByte (getFour n.pins.lines k),
   flagByte (getFour n.trip.lines k).flag, flagByte (levelCauseActive c.config n.pins k)]

/-- Object 16, TRIP_LINES (R176, Table 9-2). -/
def readTripLines (c : Settings) (n : Node) : List Byte :=
  lineFields c n 0 ++ lineFields c n 1 ++ lineFields c n 2 ++ lineFields c n 3 ++
  [flagByte (n.switchOpen c), flagByte (!n.pins.loopClosed)] ++ natBytes n.trip.loopOpens

/-- Object 18, FAULT_SUMMARY (R186); the budget B is sent as one byte, its count as two (R197, log 43). -/
def readFaultSummary (c : Settings) (n : Node) : List Byte :=
  present 5 (fun e => [byte e.code.number, e.cls.code, e.stand.code] ++ halfBytes e.number) n.flt.first ++
  [reportLevelCode c.config.reportLevel, routeCode c.config.route, byte c.config.reportBudget] ++
  natBytes n.flt.budgetCount ++ [flagByte n.flt.budgetExceeded] ++
  counts [n.flt.offered, n.flt.suppressed]

/-- Object 19, RING_STATUS (R40). -/
def readRingStatus (n : Node) : List Byte :=
  let m := n.memb
  [m.ring.code, flagByte m.carrierLocked, packFlags [m.lockOk, m.claimOk, m.neighboursOk],
   flagByte m.ringOpen, m.breakRecord.code, flagByte m.graceTimer.isSome] ++
  counts [n.ring.lossCount, n.ring.outstanding.length, n.ring.insertQueue.length,
    n.ring.passBuffer.length, n.ring.unmatchedCount, n.ring.flushedCount, m.claimResends,
    m.carrierLossCount]

/-- One record of NEIGHBOURS (R41). -/
def neighbourFields (station : Nat) (r : NeighbourRec) : List Byte :=
  [byte station, r.mark.code, flagByte r.heardInSeek] ++ counts [r.lostCount, r.recoveryCount] ++
  present 8 (fun b => [byte b.standIndex, b.standState, packFlags [b.stripPresent, b.tripped, b.hold]] ++
    natBytes b.scheduleId ++ halfBytes b.lastClosed ++ [byte b.originStation]) r.lastBeacon

/-- Object 20, NEIGHBOURS (R41). -/
def readNeighbours (c : Settings) (n : Node) : List Byte :=
  neighbourFields c.config.upstream n.memb.upstream ++
  neighbourFields c.config.downstream n.memb.downstream

/-- Object 23, RESET_CAUSE (R195). -/
def readResetCause (n : Node) : List Byte := n.startup.cause.code :: natBytes n.startup.softResets

/-- Object 24, MONITOR_STATUS (R158). -/
def readMonitorStatus (n : Node) : List Byte :=
  let g := n.gap
  [flagByte g.ffEnable, flagByte g.monitorEnable, flagByte n.ffEffective, flagByte n.monitorEffective] ++
  present 4 (fun a => halfBytes a.1 ++ natBytes a.2) g.lastApplied ++
  present 6 CoefRecord.value g.lastCoefs ++
  counts [g.counts.hits, g.counts.misses, g.counts.fillsInstalled, g.counts.fillsFailed,
    g.counts.holdSkips, g.counts.missSkips, g.counts.prefetchSkipped]

/-! ## CONFIG_VIEW (R193, Table 12-6) -/

/-- The settled access class of an object (R44, R45). -/
def settledClass (c : Settings) (index : Nat) : Option AccessClass :=
  match builtClass index with
  | none => none
  | some b => settleClass b (c.config.closures.getD index .openTo)

/-- The byte of a trip line's field: the sense, and the enable in bit 7 (Table 12-6). -/
def lineByte (k : LineConfig) : Byte := senseCode k.sense ||| (if k.enabled then 0x80 else 0)

/-- The authority list as laid out in the image: the count and four bytes, unused ones 0 (log 34). -/
def authorityBytes (a : List Nat) : List Byte :=
  byte a.length :: (List.range 4).map (fun i => byte (a.getD i 0))

/-- Fields 0 to 64 of Table 11-1 as Table 12-6 lays them out; none above 64. -/
def configField (c : Settings) (k : Nat) : Option (List Byte) :=
  let f := c.config
  match k with
  | 0 => some [byte c.station]
  | 1 => some [flagByte c.writeProtect]
  | 2 => some [byte f.standIndex]
  | 3 => some [byte f.upstream]
  | 4 => some [byte f.downstream]
  | 5 => some (natBytes f.segLength)
  | 6 => some (natBytes f.biteDistance)
  | 7 => some (natBytes f.gaugeOffset)
  | 8 => some (natBytes f.publishLead)
  | 9 => some (natBytes f.ffLead)
  | 10 => some [byte f.markInterval]
  | 11 => some (natBytes f.cobbleTolerance)
  | 12 => some (natBytes f.loadOn)
  | 13 => some (natBytes f.loadOff)
  | 14 | 15 | 16 | 17 | 18 | 19 | 20 => some (natBytes (f.bandEdges.getD (k - 14) 0))
  | 21 => some (natBytes f.tiltLimit)
  | 22 => some (natBytes f.stepThreshold)
  | 23 => some [byte f.positionTolerance]
  | 24 => some (natBytes f.moveTimeout)
  | 25 => some (natBytes f.retractTimeout)
  | 26 => some (natBytes f.standbyGap)
  | 27 => some (natBytes f.retractGap)
  | 28 => some [byte f.beaconInterval]
  | 29 => some [byte f.returnTimeout]
  | 30 => some (natBytes f.ringBreakGrace)
  | 31 => some [routeCode f.route]
  | 32 => some [reportLevelCode f.reportLevel]
  | 33 => some [byte f.reportBudget]
  | 34 => some [lineByte f.lines.x0]
  | 35 => some [lineByte f.lines.x1]
  | 36 => some [lineByte f.lines.x2]
  | 37 => some [lineByte f.lines.x3]
  | 38 => some (authorityBytes f.authority)
  | 64 => some (halfBytes f.imageCheck)
  | _ =>
    if 39 ≤ k && k ≤ 63 then
      some [closureCode (f.closures.getD (k - 39) .openTo),
        ((settledClass c (k - 39)).map AccessClass.code).getD 0]
    else none

/-! ## Every object but COEF_ENTRY -/

/-- The whole value of an object that takes no argument of its own (R197). -/
def objectValue (c : Settings) (n : Node) (index : Nat) : List Byte :=
  match index with
  | 0 => readIdent c
  | 1 => readStandState n
  | 2 => readStandCommand n
  | 3 => readActiveSchedule n
  | 4 => readNextSchedule n
  | 5 => readSlotStatus n
  | 7 => intBytes n.gap.gapTrim
  | 8 => [flagByte n.gap.ffEnable]
  | 9 => [flagByte n.gap.monitorEnable]
  | 10 => readGapStatus n
  | 11 => readForceStatus n
  | 12 => readTrackStatus n
  | 14 => readTripOrigins c n
  | 16 => readTripLines c n
  | 18 => readFaultSummary c n
  | 19 => readRingStatus n
  | 20 => readNeighbours c n
  | 23 => readResetCause n
  | 24 => readMonitorStatus n
  | _ => []

/-- The part `p` of a value: none where no byte remains for a part above 0 (R197). -/
def partOf (p : Nat) (value : List Byte) : Option (List Byte) :=
  if 0 < p && value.length ≤ 44 * p then none else some ((value.drop (44 * p)).take 44)

/-- A read that returns a value at its arrival; none is refused RANGE (R48). The argument is byte 2 of the
RDREQ's: byte 1 is not looked at, for FAULT_COUNTS and CONFIG_VIEW by the model's choice (log 49). -/
def readValue (c : Settings) (n : Node) (index : Nat) (arg : Byte) : Option (List Byte) :=
  match index with
  | 17 =>
    if 1 ≤ arg.toNat && arg.toNat ≤ 32 then
      some (arg :: natBytes (n.flt.counters.getD (arg.toNat - 1) 0))
    else none
  | 22 => configField c arg.toNat
  | _ => partOf arg.toNat (objectValue c n index)

end Sys2Proof.Machine
end

