-- ==== Sys2Proof/Machine/DirectoryOps.lean ====
section
/-! DEFINITION. The Object Directory (spec 03): admission, replies and echoes; and what each owner
makes of an admitted request (R107, R108, R110, R129 to R131, R143, R144, R154, R156, R168 to R171,
R185, R186, R194). -/

namespace Sys2Proof.Machine

/-! ## Delivery and admission -/

/-- A frame with these fields is one that local delivery hands on now (R5, R11). -/
def handed (c : Settings) (source dest : Byte) (n : Node) : Bool :=
  1 ≤ source.toNat && source.toNat ≤ 30 && source ≠ byte c.station &&
  (dest = byte c.station || dest = stationAll) && n.memb.ring.delivers && n.seq.stand ≠ .starting

/-- The objects that carry the broadcast-writable mark (Table 3-2). -/
def broadcastWritable (index : Nat) : Bool := index = 8 || index = 9 || index = 15

/-- The objects that carry the echo mark (Table 3-2). -/
def echoMarked (index : Nat) : Bool := index = 4 || index = 7 || index = 8 || index = 9

/-- The size of an object's written value (Table 12-4). -/
def valueSize (index : Nat) : Nat :=
  match index with
  | 2 | 4 | 6 | 8 | 9 | 15 | 18 | 21 => 1
  | 7 => 2
  | 17 => 3
  | 13 => 6
  | _ => 0

/-- The requester is in the authority list (R46). -/
def inAuthority (c : Settings) (source : Byte) : Bool := c.config.authority.contains source.toNat

/-- The access step of R49 for a class; none admits. -/
def classRefuses (c : Settings) (h : Header) (index : Nat) (n : Node) : AccessClass → Option Status
  | .closed | .read => some .access
  | k =>
    if h.dest = stationAll && !broadcastWritable index then some .access
    else if k = .gated && !inAuthority c h.source then some .access
    else if k = .quietWrite && !n.seq.stand.quietish then some .state
    else none

/-- The admission of a WRREQ (R49): the status of the first step that refuses it. -/
def writeRefused (c : Settings) (h : Header) (index : Nat) (length : Nat) (n : Node) : Option Status :=
  match settledClass c index with
  | none => some .noObject
  | some k =>
    match classRefuses c h index n k with
    | some st => some st
    | none => if length ≠ valueSize index then some .range else none

/-- The admission of an RDREQ up to its owner (R48). -/
def readRefused (c : Settings) (index : Nat) : Option Status :=
  match settledClass c index with
  | none => some .noObject
  | some .closed => some .access
  | some _ => none

/-! ## Answers -/

/-- A request answered without a value (R47). -/
def answer (c : Settings) (h : Header) (index : Nat) (st : Status) (n : Node) : Node :=
  reply c h.source h.tag index st [] n

/-- The changed flag of an object. -/
def ChangedFlags.get (f : ChangedFlags) (index : Nat) : Bool :=
  match index with
  | 4 => f.nextSchedule
  | 7 => f.gapTrim
  | 8 => f.ffEnable
  | 9 => f.monitorEnable
  | _ => false

/-- The changed flag of an object set. -/
def ChangedFlags.set (f : ChangedFlags) (index : Nat) : ChangedFlags :=
  match index with
  | 4 => { f with nextSchedule := true }
  | 7 => { f with gapTrim := true }
  | 8 => { f with ffEnable := true }
  | 9 => { f with monitorEnable := true }
  | _ => f

/-- After a DONE the first write since the flag was cleared sets it and offers an ECHO (R55, R56). -/
def echo (c : Settings) (index : Nat) (value : List Byte) (n : Node) : Node :=
  if n.dir.changed.get index then n
  else offerNow c (echoFrame index value)
    { n with dir := { n.dir with changed := n.dir.changed.set index } }

/-- A write to an echo-marked object replied DONE, and echoed where R55 asks for it. -/
def answerEchoed (c : Settings) (h : Header) (index : Nat) (value : List Byte) (n : Node) : Node :=
  echo c index value (answer c h index .done n)

/-- A long request's entry (R51). -/
def longEntry (h : Header) (index : Nat) (kind : LongKind) (coef : Option CoefTag) : ReqEntry :=
  { requester := h.source, tag := h.tag, index := index, kind := kind, coef := coef }

/-! ## STAND_COMMAND (R107, R108, R110) -/

/-- The three conditions of R108. -/
def mayPreset (n : Node) : Bool :=
  n.sched.active.isSome && n.memb.ring = .joined && n.memb.bothLive

/-- A PRESET command (R107, R108). -/
def commandPreset (c : Settings) (h : Header) (n : Node) : Node :=
  if n.seq.stand ≠ .quiet || !mayPreset n then answer c h 2 .state n
  else if tableFull n then answer c h 2 .busy n
  else enterPreset c (addEntry (longEntry h 2 .preset none) n)

/-- A QUIET command (R107, R110). -/
def commandQuiet (c : Settings) (h : Header) (n : Node) : Node :=
  match n.seq.stand with
  | .quiet => answer c h 2 .done n
  | .preset => answer c h 2 .done (enterQuiet c (settle c (abortPreset c n)))
  | .ready => answer c h 2 .done (enterQuiet c n)
  | _ => answer c h 2 .state n

/-! ## NEXT_SCHEDULE and SLOT_FREE (R129 to R131) -/

/-- A slot holds an id LOADED. -/
def Slot.loadedAs (id : Nat) : Slot → Bool
  | .loaded k _ => k = id
  | _ => false

/-- Some slot holds an id LOADED. -/
def SchedStore.hasLoaded (s : SchedStore) (id : Nat) : Bool := (listFour s.slots).any (Slot.loadedAs id)

/-- The LOADED slot of an id becomes ACTIVE, the ACTIVE one LOADED (R129). -/
def Slot.activate (id : Nat) : Slot → Slot
  | .loaded k r => if k = id then .active k r else .loaded k r
  | .active k r => .loaded k r
  | s => s

/-- The LOADED slot of an id becomes PENDING, the PENDING one LOADED (R130). -/
def Slot.arm (id : Nat) : Slot → Slot
  | .loaded k r => if k = id then .pending k r else .loaded k r
  | .pending k r => .loaded k r
  | s => s

/-- A slot armed, and its class handed on for prefetch (R130, R152). -/
def armSlot (id : Nat) (n : Node) : Node :=
  let s := { n.sched with slots := mapFour (Slot.arm id) n.sched.slots }
  { n with
    sched := s
    gap := match s.pendingSlot with
      | some (_, r) => n.gap.prefetch r.pclass n.meas.band
      | none => n.gap }

/-- NEXT_SCHEDULE (R129, R130). -/
def writeNextSchedule (c : Settings) (h : Header) (id : Byte) (n : Node) : Node :=
  match n.seq.stand with
  | .quiet =>
    if n.sched.hasLoaded id.toNat then
      answerEchoed c h 4 [id] { n with sched := { n.sched with
        slots := mapFour (Slot.activate id.toNat) n.sched.slots } }
    else answer c h 4 .range n
  | .rolling =>
    if n.sched.hasLoaded id.toNat then answerEchoed c h 4 [id] (armSlot id.toNat n)
    else if id = 0 then answerEchoed c h 4 [id] { n with sched := n.sched.disarm }
    else answer c h 4 .range n
  | _ => answer c h 4 .state n

/-- The LOADED slot of an id becomes EMPTY. -/
def Slot.free (id : Nat) : Slot → Slot
  | .loaded k r => if k = id then .empty else .loaded k r
  | s => s

/-- Some slot holds an id. -/
def SchedStore.holdsId (s : SchedStore) (id : Nat) : Bool :=
  (listFour s.slots).any (fun x => x.id = some id)

/-- SLOT_FREE (R131). -/
def writeSlotFree (c : Settings) (h : Header) (id : Byte) (n : Node) : Node :=
  if n.sched.hasLoaded id.toNat then
    answer c h 6 .done { n with sched := { n.sched with slots := mapFour (Slot.free id.toNat) n.sched.slots } }
  else if n.sched.holdsId id.toNat then answer c h 6 .state n
  else answer c h 6 .range n

/-! ## GAP_TRIM and the enables (R143, R144) -/

/-- GAP_TRIM (R143). -/
def writeGapTrim (c : Settings) (h : Header) (trim : Half) (n : Node) : Node :=
  if -1000 ≤ trim.toInt && trim.toInt ≤ 1000 then
    answerEchoed c h 7 (halfBytes trim)
      (reassembleUnheld c { n with gap := { n.gap with gapTrim := trim.toInt } })
  else answer c h 7 .range n

/-- FF_ENABLE (R144). -/
def writeFfEnable (c : Settings) (h : Header) (v : Byte) (n : Node) : Node :=
  if v.toNat ≤ 1 then answerEchoed c h 8 [v] { n with gap := { n.gap with ffEnable := v = 1 } }
  else answer c h 8 .range n

/-- MONITOR_ENABLE (R144). -/
def writeMonitorEnable (c : Settings) (h : Header) (v : Byte) (n : Node) : Node :=
  if v.toNat ≤ 1 then answerEchoed c h 9 [v] { n with gap := { n.gap with monitorEnable := v = 1 } }
  else answer c h 9 .range n

/-! ## COEF_ENTRY (R154, R156) -/

/-- The coefficient record of a written value. -/
def coefOfFields (pclass band : Byte) (ff mon : Half) : CoefRecord :=
  { tag := ⟨pclass.toNat, band.toNat⟩, ff := ff.toInt, mon := mon.toNat }

/-- A COEF_ENTRY write (R154). -/
def writeCoef (c : Settings) (h : Header) (r : CoefRecord) (n : Node) : Node :=
  if !r.inRange then answer c h 13 .range n
  else if c.writeProtect then answer c h 13 .access n
  else if !n.gap.room || tableFull n then answer c h 13 .busy n
  else
    let n := addEntry (longEntry h 13 .coefWrite (some r.tag)) n
    { n with gap := n.gap.enqueue (.write r true) }

/-- A COEF_ENTRY read that its class admits (R156). -/
def readCoef (c : Settings) (h : Header) (t : CoefTag) (n : Node) : Node :=
  if 63 < t.pclass || 7 < t.band then answer c h 13 .range n
  else match n.gap.cached t with
    | some r => reply c h.source h.tag 13 .done r.value n
    | none =>
      if n.gap.filling t then
        if tableFull n then answer c h 13 .busy n
        else addEntry (longEntry h 13 .coefRead (some t)) n
      else if !n.gap.room || tableFull n then answer c h 13 .busy n
      else
        let n := addEntry (longEntry h 13 .coefRead (some t)) n
        { n with gap := n.gap.enqueue (.fill t) }

/-! ## TRIP_CLEAR (R168 to R171) -/

/-- A refused clear (R168). -/
def refuseClear (c : Settings) (h : Header) (st : Status) (n : Node) : Node :=
  answer c h 15 st { n with trip := { n.trip with clearsRefused := satInc n.trip.clearsRefused } }

/-- The record without the origins that `gone` names; the pending origin moves up (R165). -/
def TripUnit.retire (gone : Origin → Bool) (t : TripUnit) : TripUnit :=
  let a := t.active.filter (fun o => !gone o)
  let p := t.pending.filter (fun o => !gone o)
  match a with
  | some _ => { t with active := a, pending := p }
  | none => { t with active := p, pending := none }

/-- The TRIP frame withdrawn from the slot where an own origin is retired (R16, R169). -/
def withdrawIfOwn (c : Settings) (n : Node) : Node :=
  if n.trip.recorded c.station then { n with ring := { n.ring with tripSlot := none } } else n

/-- The line `k` at its sense's level. -/
def lineMeets (c : Settings) (n : Node) (k : Fin 4) : Bool :=
  levelMeets (getFour c.config.lines k) (getFour n.pins.lines k)

/-- A trip line's flag given a value. -/
def putFlag (k : Fin 4) (b : Bool) (n : Node) : Node :=
  { n with trip := { n.trip with
    lines := setFour n.trip.lines k { getFour n.trip.lines k with flag := b } } }

/-- Every trip-line flag cleared, those still at their sense's level set again (R171, R177). -/
def resetFlags (c : Settings) (n : Node) : Node :=
  putFlag 3 (lineMeets c n 3) (putFlag 2 (lineMeets c n 2) (putFlag 1 (lineMeets c n 1)
    (putFlag 0 (lineMeets c n 0) n)))

/-- An enabled line at its sense's level is a local cause again (R171). -/
def causeAgain (c : Settings) (k : Fin 4) (n : Node) : Node :=
  if levelCauseActive c.config n.pins k then localCause c causeLine (byte k.val) false n else n

/-- The further effects of a taken clear; `closed` says how the loop was sensed when it was taken
(R171). The lines still at their level are local causes in the order TL0 to TL3 (log 41). -/
def clearEffects (c : Settings) (closed : Bool) (n : Node) : Node :=
  let n := if closed then { n with trip := n.trip.retire (fun o => o.station = 0) } else n
  let n := causeAgain c 3 (causeAgain c 2 (causeAgain c 1 (causeAgain c 0 (resetFlags c n))))
  judgeTripExit c { n with
    flt := n.flt.resetBudget
    trip := { n.trip with clearsTaken := satInc n.trip.clearsTaken } }

/-- A taken clear naming a station (R169, R171). -/
def takeClearOf (c : Settings) (station : Nat) (n : Node) : Node :=
  let m := if station = c.station then withdrawIfOwn c n else n
  clearEffects c n.pins.loopClosed { m with trip := m.trip.retire (fun o => o.station = station) }

/-- A taken clear to ALL (R170, R171). -/
def takeClearAll (c : Settings) (n : Node) : Node :=
  let m := withdrawIfOwn c n
  clearEffects c n.pins.loopClosed
    { m with trip := { m.trip.retire (fun o => o.station ≠ 0) with dropped := 0 } }

/-- TRIP_CLEAR (R168). -/
def writeTripClear (c : Settings) (h : Header) (v : Byte) (n : Node) : Node :=
  if n.seq.stand = .lockout then refuseClear c h .state n
  else if v.toNat = 0 || 31 < v.toNat then refuseClear c h .range n
  else if v.toNat = 31 then
    if anyLevelCause c.config n.pins then refuseClear c h .state n
    else answer c h 15 .done (settle c (takeClearAll c n))
  else if !n.trip.recorded v.toNat then refuseClear c h .range n
  else if v.toNat = c.station && anyLevelCause c.config n.pins then refuseClear c h .state n
  else answer c h 15 .done (settle c (takeClearOf c v.toNat n))

/-! ## FAULT_COUNTS and FAULT_SUMMARY (R185, R186) -/

/-- FAULT_COUNTS (R185). -/
def writeFaultCounts (c : Settings) (h : Header) (code : Byte) (count : Half) (n : Node) : Node :=
  if count ≠ 0 || 32 < code.toNat then answer c h 17 .range n
  else
    let k := if code.toNat = 0 then List.replicate 32 0 else n.flt.counters.set (code.toNat - 1) 0
    answer c h 17 .done { n with flt := { n.flt with counters := k } }

/-- FAULT_SUMMARY (R186). -/
def writeFaultSummary (c : Settings) (h : Header) (v : Byte) (n : Node) : Node :=
  if v ≠ 0 then answer c h 18 .range n
  else answer c h 18 .done { n with flt := { n.flt with first := none } }

/-! ## NODE_RESET (R194) -/

/-- The Fault Unit at a soft reset (R187). -/
def FaultUnit.softReset (f : FaultUnit) : FaultUnit :=
  { FaultUnit.powerOn with raised := f.raised }

/-- The Schedule Store at a soft reset (R136): LOADING slots become EMPTY. -/
def Slot.dropLoading : Slot → Slot
  | .loading _ => .empty
  | s => s

/-- The Schedule Store at a soft reset (R136). -/
def SchedStore.softReset (s : SchedStore) : SchedStore :=
  { s with slots := mapFour Slot.dropLoading s.slots, profile := none, coilChanges := 0,
           flyingChanges := 0 }

/-- An operation whose table entry has been aborted (R153, R54). -/
def ParamOp.orphan : ParamOp → ParamOp
  | .fill t => .fill t
  | .write r _ => .write r false

/-- The Gap Controller's cache, port and counts at a soft reset (R149, R153, R158). -/
def GapControl.softReset (g : GapControl) : GapControl :=
  { g with cache := invalidCache, queue := (g.queue.take 1).map ParamOp.orphan, waiting := none,
           lastApplied := none, lastCoefs := none, counts := CoefCounts.zero }

/-- The Ring Port at a soft reset (R15, R16, R18, R20): R15 adds the frames dropped there to the
flushed-frame count and says that a soft reset leaves the count unchanged; they are added (log 48). -/
def RingPort.softReset (p : RingPort) : RingPort :=
  { p.flush with tripSlot := none, outstanding := [] }

/-- Every entry of the request table aborted, in table order (R53, R54, log 39). -/
def abortAll (c : Settings) (n : Node) : Node :=
  n.dir.table.foldl
    (fun m e => offer c (replyFrame e.requester e.tag e.index .aborted []) m)
    { n with dir := { n.dir with table := [] } }

/-- The blocks other than the Object Directory at a soft reset, before a new CLAIM (R194); the origin
record is empty after it (R165, R177). -/
def softResetBlocks (c : Settings) (n : Node) : Node :=
  let n := enterQuietQuietly c n
  resetFlags c { n with
    ring := n.ring.softReset
    track := Tracking.powerOn
    seq := { n.seq with holdCount := 0, tailIgnored := 0 }
    sched := n.sched.softReset
    gap := n.gap.softReset
    trip := { n.trip with active := none, pending := none, dropped := 0 }
    startup := { n.startup with cause := .soft, softResets := satInc n.startup.softResets } }

/-- The soft reset, after its DONE REPLY has been offered (R194): the Fault Unit is cleared first, so
that what the soft reset raises is handled against the cleared state (R187). That the ABORTED REPLYs of the
request table are offered before the insert queue is emptied, and so go with it, is the model's choice
(R15, R54, log 39). -/
def softReset (c : Settings) (n : Node) : Node :=
  let n := pump c (softResetBlocks c (abortAll c { n with flt := n.flt.softReset }))
  if n.memb.ring = .claiming then offerClaim c n else settle c n

/-- NODE_RESET (R194): a value other than 1 is judged before the stand state (log 45). -/
def writeNodeReset (c : Settings) (h : Header) (v : Byte) (n : Node) : Node :=
  if v ≠ 1 then answer c h 21 .range n
  else if n.seq.stand.quietish then softReset c (answer c h 21 .done n)
  else answer c h 21 .state n

/-! ## Requests -/

/-- An admitted write handed to its owner (R50). -/
def ownerWrite (c : Settings) (h : Header) (index : Nat) (value : List Byte) (n : Node) : Node :=
  match index, value with
  | 2, [v] =>
    if v = 1 then commandPreset c h n
    else if v = 2 then commandQuiet c h n
    else answer c h 2 .range n
  | 4, [v] => writeNextSchedule c h v n
  | 6, [v] => writeSlotFree c h v n
  | 7, [a, b] => writeGapTrim c h (half a b) n
  | 8, [v] => writeFfEnable c h v n
  | 9, [v] => writeMonitorEnable c h v n
  | 13, [p, b, f1, f0, m1, m0] => writeCoef c h (coefOfFields p b (half f1 f0) (half m1 m0)) n
  | 15, [v] => writeTripClear c h v n
  | 17, [k, a, b] => writeFaultCounts c h k (half a b) n
  | 18, [v] => writeFaultSummary c h v n
  | 21, [v] => writeNodeReset c h v n
  | _, _ => n

/-- A WRREQ taken (R47, R49). -/
def writeRequest (c : Settings) (h : Header) (index : Byte) (value : List Byte) (n : Node) : Node :=
  match writeRefused c h index.toNat value.length n with
  | some st => answer c h index.toNat st n
  | none => ownerWrite c h index.toNat value n

/-- A write that has arrived; no frame hands it on where R11 does not (log 24). -/
def writeArrives (c : Settings) (h : Header) (index : Byte) (value : List Byte) (n : Node) : Node :=
  if handed c h.source h.dest n then writeRequest c h index value n else n

/-- An RDREQ taken (R47, R48). -/
def readRequest (c : Settings) (h : Header) (index a1 a2 : Byte) (n : Node) : Node :=
  match readRefused c index.toNat with
  | some st => answer c h index.toNat st n
  | none =>
    if index = 13 then readCoef c h ⟨a1.toNat, a2.toNat⟩ n
    else match readValue c n index.toNat a2 with
      | some v => reply c h.source h.tag index.toNat .done v n
      | none => answer c h index.toNat .range n

/-- A read that has arrived. -/
def readArrives (c : Settings) (h : Header) (index a1 a2 : Byte) (n : Node) : Node :=
  if handed c h.source h.dest n then readRequest c h index a1 a2 n else n

end Sys2Proof.Machine
end

