-- ==== Sys2Proof/Machine/ParamOps.lean ====
section
/-! DEFINITION. The end of an operation of the Parameter Port (R97, R150, R151, R153), and the loading
of schedules (R124 to R128). -/

namespace Sys2Proof.Machine

/-! ## Parameter operations -/

/-- A COEF_READ entry that waits on the fill of a tag. -/
def readsTag (t : CoefTag) (e : ReqEntry) : Bool := e.kind = .coefRead && e.coef = some t

/-- A COEF_WRITE entry of a tag. -/
def writesTag (t : CoefTag) (e : ReqEntry) : Bool := e.kind = .coefWrite && e.coef = some t

/-- Every COEF_READ that waits on the fill of a tag completed with the fill's outcome (R52). -/
def completeReads (c : Settings) (t : CoefTag) (got : Option CoefRecord) (n : Node) : Node :=
  (n.dir.table.filter (readsTag t)).foldl
    (fun m e => match got with
      | some r => reply c e.requester e.tag e.index .done r.value m
      | none => reply c e.requester e.tag e.index .failed [] m)
    { n with dir := { n.dir with table := n.dir.table.filter (fun e => !readsTag t e) } }

/-- The outcome of a fill in the cache: installed (R150) or counted as failed (R151). -/
def GapControl.fillOutcome (t : CoefTag) (got : Option CoefRecord) (g : GapControl) : GapControl :=
  match got with
  | some r =>
    let g := g.install r
    match g.waiting with
    | some w => if w.tag = t then { g with lastCoefs := some r } else g
    | none => g
  | none => { g with counts := { g.counts with fillsFailed := satInc g.counts.fillsFailed } }

/-- Those who wait on a fill are told of its end (R97, R52). -/
def tellWaiters (c : Settings) (t : CoefTag) (got : Option CoefRecord) (n : Node) : Node :=
  completeReads c t got (fillEnded c t got n)

/-- A fill's end: its outcome, the queue's next operation, and the waiters (R150, R153, log 19). -/
def endFill (c : Settings) (t : CoefTag) (got : Option CoefRecord) (n : Node) : Node :=
  tellWaiters c t got { n with gap := (n.gap.fillOutcome t got).endOperation }

/-- The operation timer expires on a fill (R151, R153). -/
def timeOutFill (c : Settings) (t : CoefTag) (n : Node) : Node :=
  tellWaiters c t none
    (raise c .paramTimeout { n with gap := (n.gap.fillOutcome t none).endOperation })

/-- The cached copy of a tag, if one is valid, replaced (R153). -/
def GapControl.updateCopy (t : CoefTag) (w : Option CoefRecord) (g : GapControl) : GapControl :=
  g.putSet t ((g.setOf t).update t w)

/-- The COEF_WRITE entry of a write completed (R52); a write whose entry was aborted has none. -/
def endWriteEntry (c : Settings) (t : CoefTag) (hasEntry : Bool) (st : Status) (n : Node) : Node :=
  if hasEntry then endEntry c (writesTag t) st [] n else n

/-- A write is complete (R153). -/
def endWrite (c : Settings) (r : CoefRecord) (hasEntry : Bool) (n : Node) : Node :=
  endWriteEntry c r.tag hasEntry .done
    { n with gap := (n.gap.updateCopy r.tag (some r)).endOperation }

/-- The operation timer expires on a write (R153). -/
def timeOutWrite (c : Settings) (r : CoefRecord) (hasEntry : Bool) (n : Node) : Node :=
  endWriteEntry c r.tag hasEntry .failed
    (raise c .paramTimeout { n with gap := (n.gap.updateCopy r.tag none).endOperation })

/-- The operation timer expires (R153). A completion taken first has given the next operation its own
20 ms. -/
def paramTimeout (c : Settings) (n : Node) : Node :=
  match timerOut n.gap.opTimer, n.gap.queue with
  | true, .fill t :: _ => timeOutFill c t n
  | true, .write r hasEntry :: _ => timeOutWrite c r hasEntry n
  | _, _ => n

/-! ## Loading schedules -/

/-- A SCHED frame answered (R47, R124). -/
def schedAnswer (c : Settings) (h : Header) (st : Status) (n : Node) : Node := answer c h 255 st n

/-- The first slot, in number order, of which `p` holds. -/
def findSlot (p : Slot → Bool) (v : Four Slot) : Option (Fin 4) :=
  if p v.x0 then some 0 else if p v.x1 then some 1 else if p v.x2 then some 2
  else if p v.x3 then some 3 else none

/-- A slot LOADING an id from a source. -/
def Slot.loads (id : Nat) (source : Byte) : Slot → Bool
  | .loading l => l.id = id && l.source = source
  | _ => false

/-- A slot LOADING from another source. -/
def Slot.loadsOther (source : Byte) : Slot → Bool
  | .loading l => l.source ≠ source
  | _ => false

/-- A slot is EMPTY. -/
def Slot.isEmpty : Slot → Bool
  | .empty => true
  | _ => false

/-- A slot replaced. -/
def putSlot (k : Fin 4) (s : Slot) (n : Node) : Node :=
  { n with sched := { n.sched with slots := setFour n.sched.slots k s } }

/-- A slot begins LOADING (R125, R128). -/
def freshLoad (id : Nat) (source : Byte) (declared : Nat) : Slot :=
  .loading { id := id, source := source, declared := declared, sections := [], timer := 1000 }

/-- OPEN (R125). -/
def schedOpened (c : Settings) (h : Header) (id count : Byte) (n : Node) : Node :=
  if id = 0 || !(count.toNat = 1 || count.toNat = 2) then schedAnswer c h .range n
  else match findSlot (Slot.loads id.toNat h.source) n.sched.slots with
    | some k => schedAnswer c h .done (putSlot k (freshLoad id.toNat h.source count.toNat) n)
    | none =>
      if n.sched.holdsId id.toNat then schedAnswer c h .state n
      else match findSlot Slot.isEmpty n.sched.slots with
        | none => schedAnswer c h .busy n
        | some k =>
          if (listFour n.sched.slots).any (Slot.loadsOther h.source) then schedAnswer c h .busy n
          else schedAnswer c h .done (putSlot k (freshLoad id.toNat h.source count.toNat) n)

/-- What a slot LOADING an id from a source holds. -/
def loadAt (v : Four Slot) (id : Nat) (source : Byte) : Option (Fin 4 × Loading) :=
  match findSlot (Slot.loads id source) v with
  | none => none
  | some k =>
    match getFour v k with
    | .loading l => some (k, l)
    | _ => none

/-- A load ended with SCHED_REFUSED and RANGE (R126, R127). -/
def refuseLoad (c : Settings) (h : Header) (k : Fin 4) (n : Node) : Node :=
  schedAnswer c h .range (raise c .schedRefused (putSlot k .empty n))

/-- SECTION (R126). -/
def schedSectionTaken (c : Settings) (h : Header) (id number : Byte) (content : List Byte) (n : Node) :
    Node :=
  match loadAt n.sched.slots id.toNat h.source with
  | none => schedAnswer c h .state n
  | some (k, l) =>
    if number.toNat ≠ l.sections.length + 1 || l.declared < number.toNat ||
        !contentSuits number.toNat content then refuseLoad c h k n
    else schedAnswer c h .done
      (putSlot k (.loading { l with sections := l.sections ++ [content], timer := 1000 }) n)

/-- A load that fails at CLOSE (R127). -/
def failLoad (c : Settings) (h : Header) (k : Fin 4) (n : Node) : Node :=
  let n := putSlot k .empty n
  schedAnswer c h .failed { n with sched := { n.sched with loadsFailed := satInc n.sched.loadsFailed } }

/-- A load that CLOSE completes (R127). -/
def completeLoad (c : Settings) (h : Header) (k : Fin 4) (l : Loading) (n : Node) : Node :=
  let n := putSlot k (.loaded l.id (scheduleOf l.sections)) n
  schedAnswer c h .done
    { n with sched := { n.sched with loadsCompleted := satInc n.sched.loadsCompleted } }

/-- CLOSE (R127). -/
def schedClosed (c : Settings) (h : Header) (id : Byte) (check : Half) (n : Node) : Node :=
  match loadAt n.sched.slots id.toNat h.source with
  | none => schedAnswer c h .state n
  | some (k, l) =>
    if l.sections.length < l.declared then refuseLoad c h k n
    else if check ≠ checkOf l.sections.flatten || !(scheduleOf l.sections).valid then failLoad c h k n
    else completeLoad c h k l n

/-- A SCHED frame that has arrived: handed on where R11 hands it on, and refused ACCESS from a station
outside the authority list (R124). -/
def schedArrives (c : Settings) (h : Header) (f : Node → Node) (n : Node) : Node :=
  if !handed c h.source h.dest n then n
  else if !inAuthority c h.source then schedAnswer c h .access n
  else f n

/-- The idle timer of a slot; none where it is not LOADING. -/
def slotTimer : Slot → Option Nat
  | .loading l => some l.timer
  | _ => none

/-- The idle timer of a LOADING slot expires (R128). A SCHED frame taken first has started it again. -/
def schedIdle (k : Fin 4) (n : Node) : Node :=
  if timerOut (slotTimer (getFour n.sched.slots k)) then
    let n := putSlot k .empty n
    { n with sched := { n.sched with loadTimeouts := satInc n.sched.loadTimeouts } }
  else n

end Sys2Proof.Machine
end

