-- ==== Sys2Proof/Machine/Acting.lean ====
section
/-! DEFINITION. How a command acts on the machine: the node's state changes by a function of the
settings, and at the end waiting fault events are handled and a free link is served. In a reset only
the levels of the input lines change (R188, log 25). -/

namespace Sys2Proof.Machine

/-- The outcome type of the machine. -/
abbrev Result := Host.Outcome State Fault Refusal

/-- The node of a machine replaced. -/
def State.withNode (s : State) (n : Node) : State := { s with node := n }

/-- The node is in a reset (R188). -/
def State.inReset (s : State) : Bool := s.node.startup.phase = .inReset

/-- A command that changes the node by `f`; nothing happens in a reset. -/
def State.act (s : State) (f : Settings → Node → Node) : Result :=
  .next (if s.inReset then s else s.withNode (finish s.settings (f s.settings s.node)))

/-- The levels of the input lines replaced. -/
def Node.withPins (n : Node) (p : Pins) : Node := { n with pins := p }

/-- A command that gives the input lines new levels and, outside a reset, changes the node by `f`,
which is given the levels before. -/
def State.input (s : State) (p : Pins) (f : Settings → Pins → Node → Node) : Result :=
  .next
    (if s.inReset then s.withNode (s.node.withPins p)
     else s.withNode (finish s.settings (f s.settings s.node.pins (s.node.withPins p))))

end Sys2Proof.Machine
end

