-- ==== Sys2Proof/Machine/DeliverOps.lean ====
section
/-! DEFINITION. Local delivery (R11, Table 1-2): what each block makes of a frame handed to it, and
the arrival of a frame (R5 to R11). -/

namespace Sys2Proof.Machine

/-! ## BEACON (R34) -/

/-- Steps 1 to 3 of R34 for the neighbours that a source is configured as. -/
def hearNeighbours (c : Settings) (source : Byte) (info : BeaconInfo) (n : Node) : Node :=
  let n := if source = byte c.config.upstream then hearNeighbour c .upstream info n else n
  if source = byte c.config.downstream then hearNeighbour c .downstream info n else n

/-- The seek ends where both neighbours have been heard (R29). -/
def seekHeard (c : Settings) (n : Node) : Node :=
  if n.memb.ring = .seeking && n.memb.upstream.heardInSeek && n.memb.downstream.heardInSeek then
    enterJoined c true n
  else n

/-- A BEACON handed to Ring Membership (R34). -/
def receiveBeacon (c : Settings) (source : Byte) (info : BeaconInfo) (n : Node) : Node :=
  let n := seekHeard c (hearNeighbours c source info n)
  if source = byte c.config.downstream then sinkBeacon c info n else n

/-- A BEACON that has arrived. -/
def beaconArrives (c : Settings) (h : Header) (p : BeaconPayload) (n : Node) : Node :=
  if handed c h.source h.dest n then receiveBeacon c h.source (beaconInfo p) n else n

/-! ## SEG and MARK -/

/-- A SEG that has arrived. -/
def segArrives (c : Settings) (h : Header) (p : SegPayload) (n : Node) : Node :=
  if handed c h.source h.dest n then receiveSeg c h.source p n else n

/-- A MARK that has arrived. -/
def markArrives (c : Settings) (h : Header) (p : MarkPayload) (n : Node) : Node :=
  if handed c h.source h.dest n then receiveMark c h.source p n else n

/-! ## TRIP (R164) -/

/-- A TRIP frame that R164 ignores. -/
def tripIgnored (c : Settings) (o : Origin) (n : Node) : Bool :=
  o.station = 0 || 31 ≤ o.station || o.station = c.station || n.trip.recorded o.station

/-- A TRIP frame handed to the Trip Unit (R164, R166, R167). -/
def receiveTrip (c : Settings) (o : Origin) (n : Node) : Node :=
  if tripIgnored c o n then
    { n with trip := { n.trip with ignoredTrips := satInc n.trip.ignoredTrips } }
  else if isUnknown n.trip.active then
    enterTrippedIfNot c { n with trip := { n.trip with active := some o } }
  else enterTrippedIfNot c { n with trip := n.trip.placeOrigin o }

/-- A TRIP that has arrived. -/
def tripArrives (c : Settings) (h : Header) (p : TripPayload) (n : Node) : Node :=
  if handed c h.source h.dest n then receiveTrip c (tripOrigin p) n else n

/-! ## SCHED -/

/-- A SCHED payload dispatched by its subkind (R124). -/
def schedPayload (c : Settings) (h : Header) (payload : List Byte) (n : Node) : Node :=
  match payload with
  | 1 :: id :: count :: _ => schedArrives c h (schedOpened c h id count) n
  | 2 :: id :: number :: content => schedArrives c h (schedSectionTaken c h id number content) n
  | 3 :: id :: k1 :: k0 :: _ => schedArrives c h (schedClosed c h id (half k1 k0)) n
  | _ => n

/-! ## Every kind (Table 1-2) -/

/-- A WRREQ payload. -/
def wrreqPayload (c : Settings) (h : Header) (payload : List Byte) (n : Node) : Node :=
  match payload with
  | index :: _ :: value => writeArrives c h index value n
  | _ => n

/-- An RDREQ payload. -/
def rdreqPayload (c : Settings) (h : Header) (payload : List Byte) (n : Node) : Node :=
  match payload with
  | [index, a1, a2] => readArrives c h index a1 a2 n
  | _ => n

/-- The fields of a frame that a receiving block is handed (R11). -/
def Frame.header (f : Frame) : Header := { source := f.source, dest := f.dest, tag := f.tag }

/-- A frame handed to the block for its kind (Table 1-2). -/
def deliver (c : Settings) (f : Frame) (n : Node) : Node :=
  let h := f.header
  match f.kind with
  | .seg => (match segOfBytes f.payload with | some p => segArrives c h p n | none => n)
  | .mark => (match markOfBytes f.payload with | some p => markArrives c h p n | none => n)
  | .beacon => (match beaconOfBytes f.payload with | some p => beaconArrives c h p n | none => n)
  | .trip => (match tripOfBytes f.payload with | some p => tripArrives c h p n | none => n)
  | .rdreq => rdreqPayload c h f.payload n
  | .wrreq => wrreqPayload c h f.payload n
  | .sched => schedPayload c h f.payload n
  | .claim | .reply | .fault | .echo => n

/-- A frame from another station: forwarded, and delivered unless it is removed as an orphan (R10,
R11). -/
def foreignFrame (c : Settings) (f : Frame) (n : Node) : Node :=
  if isOrphan f then forward c f n else deliver c f (forward c f n)

/-- An intact frame sorted by its source (R6 to R11). -/
def intactFrame (c : Settings) (f : Frame) (n : Node) : Node :=
  if n.seq.stand = .starting then forward c f n
  else if f.source = byte c.station then
    if f.kind = .claim then claimArrives c f n else returnOwn c f.tag n
  else foreignFrame c f n

/-- A whole frame has arrived on RING_RX (R5). -/
def frameArrives (c : Settings) (bytes : List Byte) (n : Node) : Node :=
  match judgeArrival bytes with
  | .badCheck => raise c .frameCheck n
  | .badForm => raise c .frameForm n
  | .intact f => intactFrame c f n

end Sys2Proof.Machine
end

