-- ==== Sys2Proof/Machine/Gap.lean ====
section
/-! DEFINITION. Gap Controller and Parameter Port commands: rows MOVE_TIMER_EXPIRY to
PARAM_OP_TIMEOUT. -/

namespace Sys2Proof.Machine

/-- A move times out (R146): supervision becomes IDLE. -/
def GapControl.timeOutMove (g : GapControl) : GapControl :=
  { g with supervision := .idle, timer := none,
           moves := { g.moves with timedOut := satInc g.moves.timedOut } }

/-- A move timed out in PRESET returns the stand to QUIET, and the entry is FAILED (R109). -/
def failPreset (c : Settings) (n : Node) : Node :=
  if n.seq.stand = .preset then endEntry c isPreset .failed [] (enterQuiet c n) else n

/-- The move timer expires (R146). A change that superseded the move first has started it again (R145). -/
def moveExpiry (c : Settings) (n : Node) : Node :=
  if n.gap.supervision = .moving && timerOut n.gap.timer then
    failPreset c (raise c .moveTimeout { n with gap := n.gap.timeOutMove })
  else n

/-- MOVE_TIMER_EXPIRY (R146, R109). -/
def execMoveTimerExpiry (s : State) : Result := s.act (fun c n => moveExpiry c n)

/-- The retract timer expires (R147). -/
def retractExpiry (c : Settings) (n : Node) : Node :=
  if n.gap.supervision = .retracting && timerOut n.gap.timer then
    raise c .retractTimeout { n with gap := { n.gap with supervision := .retractFailed, timer := none } }
  else n

/-- RETRACT_TIMER_EXPIRY (R147, R174). -/
def execRetractTimerExpiry (s : State) : Result := s.act (fun c n => retractExpiry c n)

/-- The parameter memory once a fill of a tag has read its record (log 9). -/
def fillMem (m : List Host.Cell) (t : CoefTag) (record : MemRead) : List Host.Cell :=
  memTake m t.offset 9 record

/-- What a fill of a tag has read (R151). -/
def fillRead (m : List Host.Cell) (t : CoefTag) : Option CoefRecord :=
  recordRead t (memReadBytes m t.offset 9)

/-- The tag of the fill in service. -/
def fillInService (g : GapControl) : Option CoefTag :=
  match g.queue with
  | .fill t :: _ => some t
  | _ => none

/-- FILL_COMPLETE (R150, R151, R153): the memory reports the end of the fill in service. -/
def execFillComplete (record : MemRead) (s : State) : Result :=
  match fillInService s.node.gap with
  | none => .next s
  | some t =>
    { s with paramMem := fillMem s.paramMem t record }.act
      (fun c n => endFill c t (fillRead (fillMem s.paramMem t record) t) n)

/-- COEF_WRITE_COMPLETE (R153): the memory reports the end of the write in service. -/
def execCoefWriteComplete (s : State) : Result :=
  match s.node.gap.queue with
  | .write r hasEntry :: _ =>
    { s with paramMem := memWriteBytes s.paramMem r.tag.offset r.bytes }.act
      (fun c n => endWrite c r hasEntry n)
  | _ => .next s

/-- PARAM_OP_TIMEOUT (R151, R153). -/
def execParamOpTimeout (s : State) : Result := s.act (fun c n => paramTimeout c n)

end Sys2Proof.Machine
end

