-- ==== Sys2Proof/Machine/Measurement.lean ====
section
/-! DEFINITION. Measurement Ports (spec 04): rows GAUGE_SAMPLE to ENCODER_PULSE. -/

namespace Sys2Proof.Machine

/-! ## Gauge (R62 to R66) -/

/-- A gauge sample stamped; a thickness above 8,000 is taken as 8,000 and SUSPECT (R62). -/
def stampSample (exitCount : Pos) (thickness : Nat) (good : Bool) : Sample :=
  { stamp := exitCount, thickness := min thickness 8000, good := good && thickness ≤ 8000 }

/-- A sample admitted; HOLD is asserted when the depth comes to 24 (R63, R64). -/
def Meas.takeIn (x : Sample) (m : Meas) : Meas :=
  let fifo := m.fifo ++ [x]
  { m with fifo := fifo, hold := if fifo.length = 24 then true else m.hold }

/-- A gauge sample judged by the first check of R63 that applies. -/
def gaugeSampled (c : Settings) (thickness : Nat) (good : Bool) (n : Node) : Node :=
  if !n.seq.stand.strip then
    { n with meas := { n.meas with idleDiscards := satInc n.meas.idleDiscards } }
  else if !n.pins.measuring then
    { n with meas := { n.meas with withdrawnDiscards := satInc n.meas.withdrawnDiscards } }
  else if 32 ≤ n.meas.fifo.length then raise c .sampleOverrun n
  else { n with meas := n.meas.takeIn (stampSample n.meas.exitCount thickness good) }

/-- GAUGE_SAMPLE (R62, R63). -/
def execGaugeSample (thickness : Nat) (good : Bool) (s : State) : Result :=
  s.act (fun c n => gaugeSampled c thickness good n)

/-- MEASURING changes level (R66). -/
def measuringChanged (c : Settings) (before : Pins) (level : Bool) (n : Node) : Node :=
  if before.measuring && !level && n.seq.stand = .rolling then raise c .gaugeWithdrawn n else n

/-- MEASURING_CHANGE (R66). -/
def execMeasuringChange (level : Bool) (s : State) : Result :=
  s.input { s.node.pins with measuring := level } (fun c p n => measuringChanged c p level n)

/-- SAMPLE_TAKE (R83 to R85). -/
def execSampleTake (s : State) : Result := s.act (fun c n => takeSample c n)

/-! ## Force (R67 to R70) -/

/-- The value and mark of a side of the force stage. -/
def Meas.force (m : Meas) : Side → SideValue
  | .operator => m.forceOS
  | .drive => m.forceDS

/-- A side of the force stage replaced. -/
def Meas.putForce (m : Meas) (side : Side) (v : SideValue) : Meas :=
  match side with
  | .operator => { m with forceOS := v }
  | .drive => { m with forceDS := v }

/-- A free value held between the least and the greatest band that seven strictly rising edges within
0..60,000 give a total (R69, R190). -/
def unknownBand (free total : Nat) : Nat := max (7 - (60000 - total)) (min (min 7 (total + 1)) free)

/-- The force band brought up to date; in STARTING, where the edges are unknown, a free value among the
bands that the total can have (R69, log 7). -/
def updateBand (c : Settings) (n : Node) : Node :=
  if n.seq.stand = .starting then
    { n with
      meas := { n.meas with
        band := unknownBand (Config.freeBand n.freeIndex) n.meas.total, forceTaken := true }
      freeIndex := n.freeIndex + 1 }
  else { n with meas := { n.meas with band := bandOf c.config.bandEdges n.meas.total } }

/-- The load state brought up to date, with its event (R68). -/
def updateLoad (c : Settings) (n : Node) : Node :=
  if n.seq.stand = .starting then n
  else if !n.meas.loadOn && c.config.loadOn ≤ n.meas.total then
    loadOnEvent c { n with meas := { n.meas with loadOn := true } }
  else if n.meas.loadOn && n.meas.total ≤ c.config.loadOff then
    loadOffEvent c { n with meas := { n.meas with loadOn := false } }
  else n

/-- The overload mark brought up to date against the ACTIVE force limit (R70). -/
def updateOverload (c : Settings) (n : Node) : Node :=
  match n.sched.active with
  | none => n
  | some (_, r) =>
    if !n.meas.overload then
      if n.seq.stand.strip && r.forceLimit < n.meas.total then
        raise c .overload { n with meas := { n.meas with overload := true } }
      else n
    else if n.meas.total ≤ 15 * r.forceLimit / 16 then
      clearHold c .overload { n with meas := { n.meas with overload := false } }
    else n

/-- A force sample marked valid (R67). -/
def forceValid (c : Settings) (side : Side) (force : Nat) (n : Node) : Node :=
  let n := { n with meas := n.meas.putForce side { value := min force 30000, valid := true } }
  updateOverload c (updateLoad c (updateBand c n))

/-- A force sample marked invalid (R67). -/
def forceInvalid (c : Settings) (side : Side) (n : Node) : Node :=
  if (n.meas.force side).valid then
    raise c .forceSensor
      { n with meas := n.meas.putForce side { n.meas.force side with valid := false } }
  else n

/-- FORCE_SAMPLE (R67 to R70). -/
def execForceSample (side : Side) (valid : Bool) (force : Nat) (s : State) : Result :=
  s.act (fun c n => if valid then forceValid c side force n else forceInvalid c side n)

/-! ## Position (R71 to R73) and the judging of moves (R146, R147) -/

/-- The value and mark of a side of the position stage. -/
def Meas.position (m : Meas) : Side → SideValue
  | .operator => m.posOS
  | .drive => m.posDS

/-- A side of the position stage replaced. -/
def Meas.putPosition (m : Meas) (side : Side) (v : SideValue) : Meas :=
  match side with
  | .operator => { m with posOS := v }
  | .drive => { m with posDS := v }

/-- The mark of a tilt's magnitude under an unknown limit, which lies in 50..2,000 (R72, R190): a free
value only where such limits differ. -/
def unknownTilt (free : Bool) (magnitude : Nat) : Bool := 50 < magnitude && (2000 < magnitude || free)

/-- The tilt mark that the tilt gives; in STARTING, where the limit is unknown, a free value among the
marks that the tilt can have (R72, log 7). -/
def tiltJudged (c : Settings) (n : Node) : Bool :=
  if n.seq.stand = .starting then unknownTilt (Config.freeMark n.freeIndex) n.meas.tilt.natAbs
  else c.config.tiltLimit < n.meas.tilt.natAbs

/-- The tilt mark brought up to date; TILT_LIMIT where it becomes SET in a strip state (R72). -/
def updateTilt (c : Settings) (n : Node) : Node :=
  let mark := tiltJudged c n
  let m := { n with
    meas := { n.meas with tiltMark := mark }
    freeIndex := if n.seq.stand = .starting then n.freeIndex + 1 else n.freeIndex }
  if mark && !n.meas.tiltMark && n.seq.stand.strip then raise c .tiltLimit m else m

/-- The measured gap lies within the position tolerance of a target, bounds included (R146). -/
def withinTolerance (c : Settings) (n : Node) (target : Nat) : Bool :=
  gapDistance n.meas.gap target ≤ c.config.positionTolerance

/-- A move completes; in PRESET the stand becomes READY and the entry is DONE (R146, R109). -/
def completeMove (c : Settings) (n : Node) : Node :=
  let n := { n with gap := { n.gap with
    supervision := .idle, timer := none
    moves := { n.gap.moves with completed := satInc n.gap.moves.completed } } }
  if n.seq.stand = .preset then endEntry c isPreset .done [] (enterReady n) else n

/-- A retract completes (R147, R172). -/
def completeRetract (c : Settings) (n : Node) : Node :=
  judgeTripExit c { n with gap := { n.gap with supervision := .retracted, timer := none } }

/-- A measured gap handed to supervision (R146, R147). -/
def judgeGap (c : Settings) (n : Node) : Node :=
  match n.gap.supervision with
  | .moving => if withinTolerance c n n.gap.target then completeMove c n else n
  | .retracting => if withinTolerance c n n.gap.target then completeRetract c n else n
  | _ => n

/-- A position sample marked valid (R71 to R73). -/
def positionValid (c : Settings) (side : Side) (position : Nat) (n : Node) : Node :=
  let n := { n with meas := n.meas.putPosition side { value := min position 60000, valid := true } }
  judgeGap c (updateTilt c n)

/-- A position sample marked invalid (R71). -/
def positionInvalid (c : Settings) (side : Side) (n : Node) : Node :=
  if (n.meas.position side).valid then
    raise c .positionSensor
      { n with meas := n.meas.putPosition side { n.meas.position side with valid := false } }
  else n

/-- POSITION_SAMPLE (R71 to R73, R146, R147). -/
def execPositionSample (side : Side) (valid : Bool) (position : Nat) (s : State) : Result :=
  s.act (fun c n => if valid then positionValid c side position n else positionInvalid c side n)

/-! ## Length (R74 to R76) -/

/-- The four levels of an encoder's lines after new ones. -/
def Pins.putEncoder (p : Pins) (which : Encoder) (a b : Bool) : Pins :=
  match which with
  | .entry => { p with entryA := a, entryB := b }
  | .exit => { p with exitA := a, exitB := b }

/-- An encoder's lines. -/
def Pins.encoder (p : Pins) : Encoder → Bool × Bool
  | .entry => (p.entryA, p.entryB)
  | .exit => (p.exitA, p.exitB)

/-- What a change of an encoder's lines is (R74). -/
inductive Turn where
  | none | forward | reverse | both
deriving DecidableEq, Repr

/-- The turn from one pair of levels to another: forward is the A line leading, (0,0), (1,0), (1,1),
(0,1) and round again (R74, log 8). -/
def turnOf (old new : Bool × Bool) : Turn :=
  if old = new then .none
  else if old.1 ≠ new.1 && old.2 ≠ new.2 then .both
  else if new = (!old.2, old.1) then .forward
  else .reverse

/-- An encoder-error counted (R74). -/
def noteEncoderError (which : Encoder) (n : Node) : Node :=
  match which with
  | .entry => { n with meas := { n.meas with entryErrors := satInc n.meas.entryErrors } }
  | .exit => { n with meas := { n.meas with exitErrors := satInc n.meas.exitErrors } }

/-- A forward pulse of the exit encoder moves the EXIT count and, beyond it, the EXIT peak (R74,
R75). -/
def Meas.exitForward (m : Meas) : Meas :=
  let count := m.exitCount + 1
  { m with exitCount := count, exitPeak := if passed count m.exitPeak then count else m.exitPeak }

/-- A reversal in a strip state: the record is made or its high mark set again, and the first raises
ENCODER_REVERSE (R75, log 13). -/
def noteReversal (c : Settings) (n : Node) : Node :=
  let m := { n with meas := { n.meas with reversal := some n.meas.exitPeak } }
  if !n.seq.stand.strip then n
  else if n.meas.reversal.isNone then raise c .encoderReverse m
  else m

/-- The recovery of R76 is reached. -/
def recoveryDue (c : Settings) (m : Meas) : Bool :=
  match m.reversal with
  | none => false
  | some high => reaches m.exitCount (high + mm c.config.segLength)

/-- A reverse recovery (R76, R118). -/
def recover (c : Settings) (n : Node) : Node :=
  clearHold c .reverse { n with meas := { n.meas with reversal := none } }

/-- The Tracking Unit's comparisons at a change of the EXIT count (R85, R89, log 17). -/
def exitCompared (c : Settings) (n : Node) : Node := publishOnCount c (closeOnCount c n)

/-- A forward pulse of the exit encoder; where a recovery is due its order beside the Tracking
Unit's comparisons is free (R76, log 16). -/
def exitForward (c : Settings) (n : Node) : Node :=
  let n := { n with meas := n.meas.exitForward }
  if recoveryDue c n.meas then
    let first := Config.recoveryFirst n.freeIndex
    let n := { n with freeIndex := n.freeIndex + 1 }
    if first then exitCompared c (recover c n) else recover c (exitCompared c n)
  else exitCompared c n

/-- A reverse pulse of the exit encoder (R74, R75). -/
def exitReverse (c : Settings) (n : Node) : Node :=
  let n := noteReversal c n
  exitCompared c { n with meas := { n.meas with exitCount := n.meas.exitCount - 1 } }

/-- A forward pulse of the entry encoder (R74, R96). -/
def entryForward (c : Settings) (n : Node) : Node :=
  applyAll c { n with meas := { n.meas with entryCount := n.meas.entryCount + 1 } }

/-- A reverse pulse of the entry encoder (R74, R75). -/
def entryReverse (c : Settings) (n : Node) : Node :=
  let n := noteReversal c n
  applyAll c { n with meas := { n.meas with entryCount := n.meas.entryCount - 1 } }

/-- A change of an encoder's lines (R74). -/
def encoderTurned (c : Settings) (which : Encoder) (t : Turn) (n : Node) : Node :=
  match t, which with
  | .none, _ => n
  | .both, _ => noteEncoderError which n
  | .forward, .entry => entryForward c n
  | .reverse, .entry => entryReverse c n
  | .forward, .exit => exitForward c n
  | .reverse, .exit => exitReverse c n

/-- ENCODER_PULSE (R74 to R76). -/
def execEncoderPulse (which : Encoder) (a b : Bool) (s : State) : Result :=
  s.input (s.node.pins.putEncoder which a b)
    (fun c p n => encoderTurned c which (turnOf (p.encoder which) (a, b)) n)

end Sys2Proof.Machine
end

