-- ==== Sys2Proof/Machine/Membership.lean ====
section
/-! DEFINITION. Ring Membership commands: rows BEACON_RECEIVED to RING_BREAK_GRACE_EXPIRY. -/

namespace Sys2Proof.Machine

/-- BEACON_RECEIVED (R34, R35, R29, R113): a BEACON handed on by local delivery. -/
def execBeaconReceived (h : Header) (p : BeaconPayload) (s : State) : Result :=
  s.act (fun c n => beaconArrives c h p n)

/-- BEACON_TIMER_EXPIRY (R32). -/
def execBeaconTimerExpiry (s : State) : Result := s.act (fun c n => beaconExpiry c n)

/-- SEEK_TIMER_EXPIRY (R29). -/
def execSeekTimerExpiry (s : State) : Result := s.act (fun c n => seekExpiry c n)

/-- LIVENESS_TIMER_EXPIRY (R35). -/
def execLivenessTimerExpiry (which : Neighbour) (s : State) : Result :=
  s.act (fun c n => livenessExpiry c which n)

/-- RING_BREAK_GRACE_EXPIRY (R39). -/
def execRingBreakGraceExpiry (s : State) : Result := s.act (fun c n => graceExpiry c n)

end Sys2Proof.Machine
end

