-- ==== Sys2Proof/Machine/Received.lean ====
section
/-! DEFINITION. Frames handed to the Tracking Unit and the Trip Unit: rows SEG_RECEIVED,
MARK_RECEIVED, TRIP_RECEIVED. -/

namespace Sys2Proof.Machine

/-- SEG_RECEIVED (R93 to R97). -/
def execSegReceived (h : Header) (p : SegPayload) (s : State) : Result :=
  s.act (fun c n => segArrives c h p n)

/-- MARK_RECEIVED (R98, R99). -/
def execMarkReceived (h : Header) (p : MarkPayload) (s : State) : Result :=
  s.act (fun c n => markArrives c h p n)

/-- TRIP_RECEIVED (R164, R166, R167). -/
def execTripReceived (h : Header) (p : TripPayload) (s : State) : Result :=
  s.act (fun c n => tripArrives c h p n)

end Sys2Proof.Machine
end

