-- ==== Sys2Proof/Machine/Requests.lean ====
section
/-! DEFINITION. Requests to the Object Directory: rows OBJECT_WRITE to NODE_RESET. Each row is a
request as local delivery hands it on (R11, R47), with its object and value. -/

namespace Sys2Proof.Machine

/-- OBJECT_WRITE (R49, R50): any WRREQ. -/
def execObjectWrite (h : Header) (index : Byte) (value : List Byte) (s : State) : Result :=
  s.act (fun c n => writeArrives c h index value n)

/-- STAND_COMMAND_PRESET (R107, R108): PRESET written to object 2. -/
def execStandCommandPreset (h : Header) (s : State) : Result :=
  s.act (fun c n => writeArrives c h 2 [1] n)

/-- STAND_COMMAND_QUIET (R107, R110): QUIET written to object 2. -/
def execStandCommandQuiet (h : Header) (s : State) : Result :=
  s.act (fun c n => writeArrives c h 2 [2] n)

/-- NEXT_SCHEDULE (R129, R130): object 4. -/
def execNextSchedule (h : Header) (id : Byte) (s : State) : Result :=
  s.act (fun c n => writeArrives c h 4 [id] n)

/-- SLOT_FREE (R131): object 6. -/
def execSlotFree (h : Header) (id : Byte) (s : State) : Result :=
  s.act (fun c n => writeArrives c h 6 [id] n)

/-- GAP_TRIM (R143): object 7. -/
def execGapTrim (h : Header) (trim : Half) (s : State) : Result :=
  s.act (fun c n => writeArrives c h 7 (halfBytes trim) n)

/-- FF_ENABLE (R144): object 8. -/
def execFfEnable (h : Header) (enable : Byte) (s : State) : Result :=
  s.act (fun c n => writeArrives c h 8 [enable] n)

/-- MONITOR_ENABLE (R144): object 9. -/
def execMonitorEnable (h : Header) (enable : Byte) (s : State) : Result :=
  s.act (fun c n => writeArrives c h 9 [enable] n)

/-- COEF_ENTRY_WRITE (R154): object 13. -/
def execCoefEntryWrite (h : Header) (pclass band : Byte) (ff mon : Half) (s : State) : Result :=
  s.act (fun c n => writeArrives c h 13 (pclass :: band :: (halfBytes ff ++ halfBytes mon)) n)

/-- COEF_ENTRY_READ (R156): a read of object 13. -/
def execCoefEntryRead (h : Header) (pclass band : Byte) (s : State) : Result :=
  s.act (fun c n => readArrives c h 13 pclass band n)

/-- TRIP_CLEAR_STATION (R168, R169, R171): object 15 with a station number. -/
def execTripClearStation (h : Header) (station : Byte) (s : State) : Result :=
  s.act (fun c n => writeArrives c h 15 [station] n)

/-- TRIP_CLEAR_ALL (R168, R170, R171): object 15 with 31. -/
def execTripClearAll (h : Header) (s : State) : Result :=
  s.act (fun c n => writeArrives c h 15 [31] n)

/-- FAULT_COUNTS_CLEAR (R185): object 17. -/
def execFaultCountsClear (h : Header) (code : Byte) (count : Half) (s : State) : Result :=
  s.act (fun c n => writeArrives c h 17 (code :: halfBytes count) n)

/-- FAULT_SUMMARY_CLEAR (R186): object 18. -/
def execFaultSummaryClear (h : Header) (value : Byte) (s : State) : Result :=
  s.act (fun c n => writeArrives c h 18 [value] n)

/-- NODE_RESET (R194): object 21. -/
def execNodeReset (h : Header) (value : Byte) (s : State) : Result :=
  s.act (fun c n => writeArrives c h 21 [value] n)

end Sys2Proof.Machine
end

