-- ==== Sys2Proof/Machine/RingPort.lean ====
section
/-! DEFINITION. Ring Port commands: rows FRAME_ARRIVAL to CARRIER_LOSS. -/

namespace Sys2Proof.Machine

/-- FRAME_ARRIVAL (R5 to R11): a whole frame, with its check, arrives on RING_RX. -/
def execFrameArrival (bytes : List Byte) (s : State) : Result :=
  s.act (fun c n => frameArrives c bytes n)

/-- OWN_FRAME_RETURN (R8, R9): an own frame other than a CLAIM comes back. In STARTING no frame is
stripped (R6, log 24). -/
def execOwnFrameReturn (tag : Byte) (s : State) : Result :=
  s.act (fun c n => if n.seq.stand = .starting then n else returnOwn c tag n)

/-- The CLAIM that a claim header stands for (R7). -/
def claimFrameOf (c : Settings) (h : ClaimHeader) : Frame :=
  { kind := .claim, source := byte c.station, dest := h.dest, tag := h.tag, hop := h.hop.toNat,
    objection := h.objection, payload := [h.standIndex] }

/-- The fields of a claim header lie in their ranges (R5). -/
def claimInRange (h : ClaimHeader) : Bool :=
  1 ≤ h.dest.toNat && h.dest.toNat ≤ 31 && h.hop.toNat ≤ 32

/-- CLAIM_OWN_SOURCE (R7): a CLAIM with this node's number has passed the checks of R5. -/
def execClaimOwnSource (h : ClaimHeader) (s : State) : Result :=
  s.act (fun c n => if claimInRange h then claimArrives c (claimFrameOf c h) n else n)

/-- The time at which a tracked frame's transmission ended, in its entry (R19). -/
def stampEntry (tag : Byte) (now : Nat) (e : OutEntry) : OutEntry :=
  if e.tag = tag && e.sentAt.isNone then { e with sentAt := some now } else e

/-- The frame on RING_TX has been sent whole (R17, R19). -/
def endTransmission (n : Node) : Node :=
  match n.ring.sending with
  | none => n
  | some x =>
    { n with ring := { n.ring with
      sending := none
      outstanding := if x.tracked then n.ring.outstanding.map (stampEntry x.frame.tag n.clock)
        else n.ring.outstanding } }

/-- TRANSMIT_END (R17, R19): the transmission ends, and the arbiter selects the next frame. -/
def execTransmitEnd (s : State) : Result := s.act (fun _ n => endTransmission n)

/-- RETURN_TIMEOUT (R21). -/
def execReturnTimeout (s : State) : Result := s.act (fun c n => returnExpiry c n)

/-- CARRIER_LOCK (R24, R25, R30). -/
def execCarrierLock (s : State) : Result :=
  s.input { s.node.pins with carrier := true } (fun c _ n => carrierLocked c n)

/-- CARRIER_LOSS (R24, R25, R30). -/
def execCarrierLoss (s : State) : Result :=
  s.input { s.node.pins with carrier := false } (fun c _ n => carrierLost c n)

end Sys2Proof.Machine
end

