-- ==== Sys2Proof/Machine/Schedules.lean ====
section
/-! DEFINITION. Schedule Store commands: rows SCHED_OPEN to SCHED_IDLE_TIMEOUT. -/

namespace Sys2Proof.Machine

/-- SCHED_OPEN (R124, R125). -/
def execSchedOpen (h : Header) (id count : Byte) (s : State) : Result :=
  s.act (fun c n => schedArrives c h (schedOpened c h id count) n)

/-- SCHED_SECTION (R124, R126). -/
def execSchedSection (h : Header) (id number : Byte) (content : List Byte) (s : State) : Result :=
  s.act (fun c n => schedArrives c h (schedSectionTaken c h id number content) n)

/-- SCHED_CLOSE (R124, R127). -/
def execSchedClose (h : Header) (id : Byte) (check : Half) (s : State) : Result :=
  s.act (fun c n => schedArrives c h (schedClosed c h id check) n)

/-- SCHED_IDLE_TIMEOUT (R128). -/
def execSchedIdleTimeout (slot : Fin 4) (s : State) : Result := s.act (fun _ n => schedIdle slot n)

end Sys2Proof.Machine
end

