-- ==== Sys2Proof/Machine/Startup.lean ====
section
/-! DEFINITION. Start-up Control (spec 11): resets, the configuration read and the conditions that
stand after it. Rows RESET_ASSERT to STANDING_CONDITION. -/

namespace Sys2Proof.Machine

/-! ## The beginning of a reset (R188) -/

/-- The nine bytes of a coefficient record as the memory left them (R188, log 10). -/
def abandonedBytes (draw : Nat) : List Byte := (List.range 9).map (Config.freeByte draw)

/-- The operation in service is a coefficient write. -/
def writeInService (n : Node) : Option CoefRecord :=
  match n.gap.queue with
  | .write r _ :: _ => some r
  | _ => none

/-- The parameter memory when a reset abandons the operation in service (R188). -/
def abandonedMem (s : State) : List Host.Cell :=
  match writeInService s.node with
  | some r => memWriteBytes s.paramMem r.tag.offset (abandonedBytes s.node.freeIndex)
  | none => s.paramMem

/-- The node in a reset: outputs at their reset levels, work under way abandoned (R188). -/
def Node.beginReset (pin : ResetPin) (n : Node) : Node :=
  { n with
    ring := { n.ring with sending := none }
    dir := { n.dir with table := [] }
    meas := { n.meas with hold := false }
    sched := { n.sched with slots := mapFour Slot.dropLoading n.sched.slots }
    gap := { n.gap with servoEn := false, reference := 0, supervision := .idle, timer := none,
                        queue := [], opTimer := none }
    startup := { n.startup with
      phase := .inReset
      porstSeen := (n.startup.phase = .inReset && n.startup.porstSeen) || pin = .porst
      standing := []
      imageRead := none }
    freeIndex := if (writeInService n).isSome then n.freeIndex + 1 else n.freeIndex }

/-- RESET_ASSERT (R188): PORST or HRST is asserted. -/
def execResetAssert (pin : ResetPin) (s : State) : Result :=
  .next { s with paramMem := abandonedMem s, node := s.node.beginReset pin }

/-! ## The end of a reset (R188, R189) -/

/-- A station number that the straps may give (R189). -/
def stationValid (station : Nat) : Bool := 1 ≤ station && station ≤ 30

/-- The phase that the straps lead to (R189, R190). -/
def strapPhase (station : Nat) : StartPhase := if stationValid station then .reading else .invalid

/-- The straps read, the configuration unknown (R189). -/
def strapSettings (station : Nat) (writeProtect : Bool) : Settings :=
  { station := station, writeProtect := writeProtect, config := NodeConfig.unset }

/-- RESET_END (R188, R189): both pins are negated and the straps are read. -/
def execResetEnd (station : BitVec 5) (writeProtect : Bool) (s : State) : Result :=
  .next { s with
    settings := strapSettings station.toNat writeProtect
    node := Node.powerOn s.node.pins (strapPhase station.toNat) s.node.startup.porstSeen
      s.node.freeIndex }

/-! ## The configuration read (R189, R190, R192) -/

/-- A line's flag taken from its start record, which is then discarded (spec 09 section 9.1). -/
def LineState.accepted (k : LineConfig) (l : LineState) : LineState :=
  { flag := flagFromRecord k l, seenRise := false, seenFall := false, seenHigh := false,
    seenLow := false }

/-- The lines at acceptance. -/
def acceptLines (c : NodeConfig) (v : Four LineState) : Four LineState :=
  ⟨v.x0.accepted c.lines.x0, v.x1.accepted c.lines.x1, v.x2.accepted c.lines.x2,
   v.x3.accepted c.lines.x3⟩

/-- An enabled line whose flag stands after acceptance (R160). -/
def lineStands (c : NodeConfig) (v : Four LineState) (k : Fin 4) : List Standing :=
  if (getFour c.lines k).enabled && (getFour v k).flag then [.line k] else []

/-- The conditions that stand after the entry to QUIET (R192); the loop is judged when its turn comes
(log 27). -/
def standingConditions (c : NodeConfig) (n : Node) : List Standing :=
  (if c.loadOn ≤ n.meas.total then [Standing.load] else []) ++
  (if n.pins.servoFlt then [Standing.servo] else []) ++
  lineStands c n.trip.lines 0 ++ lineStands c n.trip.lines 1 ++ lineStands c n.trip.lines 2 ++
  lineStands c n.trip.lines 3 ++
  (if n.meas.posOS.valid then [] else [Standing.position .operator]) ++
  (if n.meas.posDS.valid then [] else [Standing.position .drive]) ++
  [Standing.loopSensedOpen]

/-- The flags of the trip lines set from their start records. -/
def takeRecords (c : NodeConfig) (n : Node) : Node :=
  { n with trip := { n.trip with lines := acceptLines c n.trip.lines } }

/-- The Measurement Ports at the entry to QUIET from STARTING: the load state is judged (R68, R79); the band
of a force sample taken in STARTING becomes that of the accepted edges, and with none taken it stays as it is
(R69, R79, log 7); the tilt mark becomes that of the accepted limit, CLEAR where no sample has come (R72). -/
def Meas.accepted (c : NodeConfig) (m : Meas) : Meas :=
  { m with
    loadOn := c.loadOn ≤ m.total
    band := if m.forceTaken then bandOf c.bandEdges m.total else m.band
    forceTaken := false
    tiltMark := c.tiltLimit < m.tilt.natAbs }

/-- Entry to QUIET from STARTING, before the ring state machine starts (R192). -/
def enterRunning (c : Settings) (n : Node) : Node :=
  let n := takeRecords c.config n
  { n with
    seq := { n.seq with stand := .quiet }
    gap := { { n.gap with base := some c.config.standbyGap, servoEn := !n.pins.servoFlt }.startMove
      c.config c.config.standbyGap with clampMark := false }
    meas := n.meas.accepted c.config
    flt := n.flt.resetBudget
    startup := { n.startup with
      phase := .running, standing := standingConditions c.config n, imageRead := none } }

/-- The configuration accepted (R192): the ring becomes CLAIMING at once if the carrier is locked
(R25). -/
def startRunning (c : Settings) (n : Node) : Node :=
  let n := enterRunning c n
  finish c (if n.memb.carrierLocked then enterClaiming c n else n)

/-- Start-up ends invalid (R190). -/
def endInvalid (n : Node) : Node :=
  { n with startup := { n.startup with phase := .invalid, imageRead := none } }

/-- The number of bytes of the image (R198). -/
def imageLength : Nat := 90

/-- The image judged (R190). -/
def judgeImage (im : List Byte) (s : State) : State :=
  if imageAccepted s.settings.station im then
    let c := { s.settings with config := configOf im }
    { s with settings := c, node := startRunning c s.node }
  else s.withNode (endInvalid s.node)

/-- The memory as it stands once the whole image has been read (log 9). -/
def State.withImage (image : MemRead) (s : State) : State :=
  { s with paramMem := memTake s.paramMem 0 imageLength image }

/-- CONFIG_READ_END (R190): the configuration image has been read. -/
def execConfigReadEnd (image : MemRead) (s : State) : Result :=
  .next
    (if s.node.startup.phase = .reading then
      judgeImage (memReadBytes (s.withImage image).paramMem 0 imageLength) (s.withImage image)
     else s)

/-- CONFIG_READ_TIMEOUT (R189): the memory is absent. -/
def execConfigReadTimeout (s : State) : Result :=
  .next (if s.node.startup.phase = .reading then s.withNode (endInvalid s.node) else s)

/-! ## Standing conditions (R192) -/

/-- A loop-open event, or the open loop found at start-up, acting by the stand state and the record
(R162). -/
def loopOpenActs (c : Settings) (n : Node) : Node :=
  match n.seq.stand with
  | .starting | .lockout => n
  | _ =>
    if n.trip.active.isSome then n
    else enterTrippedIfNot c { n with trip := { n.trip with active := some Origin.unknown } }

/-- A standing condition acts (R192). -/
def standingActs (c : Settings) (k : Standing) (n : Node) : Node :=
  match k with
  | .load => loadOnEvent c n
  | .servo => raise c .servoFault n
  | .line i => localCause c causeLine (byte i.val) false n
  | .position _ => raise c .positionSensor n
  | .loopSensedOpen => if n.pins.loopClosed then n else loopOpenActs c n

/-- A condition that still stands is taken. -/
def takeStanding (c : Settings) (k : Standing) (n : Node) : Node :=
  if n.startup.standing.contains k then
    standingActs c k { n with startup := { n.startup with standing := n.startup.standing.erase k } }
  else n

/-- STANDING_CONDITION (R192). -/
def execStandingCondition (k : Standing) (s : State) : Result :=
  s.act (fun c n => takeStanding c k n)

end Sys2Proof.Machine
end

