-- ==== Sys2Proof/Machine/Trips.lean ====
section
/-! DEFINITION. Trip Unit and servo commands: rows TRIP_LINE_CHANGE to SERVO_FLT. -/

namespace Sys2Proof.Machine

/-- A change of a line's level in the start record (spec 09 section 9.1). -/
def LineState.seen (level : Bool) (l : LineState) : LineState :=
  if level then { l with seenRise := true, seenHigh := true }
  else { l with seenFall := true, seenLow := true }

/-- A trip line's state replaced. -/
def putLine (k : Fin 4) (l : LineState) (n : Node) : Node :=
  { n with trip := { n.trip with lines := setFour n.trip.lines k l } }

/-- A condition that occurs sets the flag; an enabled line whose flag becomes set is a local cause
(R160). -/
def lineOccurs (c : Settings) (k : Fin 4) (n : Node) : Node :=
  let l := getFour n.trip.lines k
  let m := putLine k { l with flag := true } n
  if (getFour c.config.lines k).enabled && !l.flag then localCause c causeLine (byte k.val) false m
  else m

/-- A trip line has changed to a level (spec 09 section 9.1). -/
def lineChanged (c : Settings) (k : Fin 4) (level : Bool) (n : Node) : Node :=
  if n.seq.stand = .starting then putLine k ((getFour n.trip.lines k).seen level) n
  else if conditionOccurs (getFour c.config.lines k) level then lineOccurs c k n
  else n

/-- The level of a trip line replaced. -/
def Pins.putLine (p : Pins) (k : Fin 4) (level : Bool) : Pins :=
  { p with lines := setFour p.lines k level }

/-- TRIP_LINE_CHANGE (R160); a level that does not change is no event (log 21). -/
def execTripLineChange (line : Fin 4) (level : Bool) (s : State) : Result :=
  s.input (s.node.pins.putLine line level)
    (fun c p n => if getFour p.lines line = level then n else lineChanged c line level n)

/-- A loop-open event (R162). -/
def loopOpened (c : Settings) (n : Node) : Node :=
  loopOpenActs c { n with trip := { n.trip with loopOpens := satInc n.trip.loopOpens } }

/-- LOOP_OPEN (R162); a loop already sensed open raises nothing (log 21). -/
def execLoopOpen (s : State) : Result :=
  s.input { s.node.pins with loopClosed := false }
    (fun c p n => if p.loopClosed then loopOpened c n else n)

/-- LOOP_CLOSING (R162, R172). -/
def execLoopClosing (s : State) : Result :=
  s.input { s.node.pins with loopClosed := true }
    (fun c p n => if p.loopClosed then n else judgeTripExit c n)

/-- SERVO_FLT is asserted (R148). -/
def servoFails (c : Settings) (n : Node) : Node :=
  if n.seq.stand = .starting then n
  else raise c .servoFault { n with gap := { n.gap with servoEn := false } }

/-- SERVO_FLT (R148); its negation has no effect but on its level (log 21). -/
def execServoFlt (asserted : Bool) (s : State) : Result :=
  s.input { s.node.pins with servoFlt := asserted }
    (fun c p n => if asserted && !p.servoFlt then servoFails c n else n)

end Sys2Proof.Machine
end

