-- ==== Sys2Proof/Machine/Dispatch.lean ====
section
/-! DEFINITION. One arm for each command: a direct call of its meaning. -/

namespace Sys2Proof.Machine

def exec (i : Instr) (s : State) : Host.Outcome State Fault Refusal :=
  match i with
  | .resetAssert pin => Sys2Proof.Machine.execResetAssert pin s
  | .resetEnd station writeProtect => Sys2Proof.Machine.execResetEnd station writeProtect s
  | .configReadEnd image => Sys2Proof.Machine.execConfigReadEnd image s
  | .configReadTimeout => Sys2Proof.Machine.execConfigReadTimeout s
  | .standingCondition k => Sys2Proof.Machine.execStandingCondition k s
  | .frameArrival bytes => Sys2Proof.Machine.execFrameArrival bytes s
  | .ownFrameReturn tag => Sys2Proof.Machine.execOwnFrameReturn tag s
  | .claimOwnSource h => Sys2Proof.Machine.execClaimOwnSource h s
  | .transmitEnd => Sys2Proof.Machine.execTransmitEnd s
  | .returnTimeout => Sys2Proof.Machine.execReturnTimeout s
  | .carrierLock => Sys2Proof.Machine.execCarrierLock s
  | .carrierLoss => Sys2Proof.Machine.execCarrierLoss s
  | .beaconReceived h p => Sys2Proof.Machine.execBeaconReceived h p s
  | .beaconTimerExpiry => Sys2Proof.Machine.execBeaconTimerExpiry s
  | .seekTimerExpiry => Sys2Proof.Machine.execSeekTimerExpiry s
  | .livenessTimerExpiry which => Sys2Proof.Machine.execLivenessTimerExpiry which s
  | .ringBreakGraceExpiry => Sys2Proof.Machine.execRingBreakGraceExpiry s
  | .objectWrite h index value => Sys2Proof.Machine.execObjectWrite h index value s
  | .standCommandPreset h => Sys2Proof.Machine.execStandCommandPreset h s
  | .standCommandQuiet h => Sys2Proof.Machine.execStandCommandQuiet h s
  | .nextSchedule h id => Sys2Proof.Machine.execNextSchedule h id s
  | .slotFree h id => Sys2Proof.Machine.execSlotFree h id s
  | .gapTrim h trim => Sys2Proof.Machine.execGapTrim h trim s
  | .ffEnable h enable => Sys2Proof.Machine.execFfEnable h enable s
  | .monitorEnable h enable => Sys2Proof.Machine.execMonitorEnable h enable s
  | .coefEntryWrite h pclass band ff mon => Sys2Proof.Machine.execCoefEntryWrite h pclass band ff mon s
  | .coefEntryRead h pclass band => Sys2Proof.Machine.execCoefEntryRead h pclass band s
  | .tripClearStation h station => Sys2Proof.Machine.execTripClearStation h station s
  | .tripClearAll h => Sys2Proof.Machine.execTripClearAll h s
  | .faultCountsClear h code count => Sys2Proof.Machine.execFaultCountsClear h code count s
  | .faultSummaryClear h value => Sys2Proof.Machine.execFaultSummaryClear h value s
  | .nodeReset h value => Sys2Proof.Machine.execNodeReset h value s
  | .schedOpen h id count => Sys2Proof.Machine.execSchedOpen h id count s
  | .schedSection h id number content => Sys2Proof.Machine.execSchedSection h id number content s
  | .schedClose h id check => Sys2Proof.Machine.execSchedClose h id check s
  | .schedIdleTimeout slot => Sys2Proof.Machine.execSchedIdleTimeout slot s
  | .segReceived h p => Sys2Proof.Machine.execSegReceived h p s
  | .markReceived h p => Sys2Proof.Machine.execMarkReceived h p s
  | .tripReceived h p => Sys2Proof.Machine.execTripReceived h p s
  | .gaugeSample thickness good => Sys2Proof.Machine.execGaugeSample thickness good s
  | .measuringChange level => Sys2Proof.Machine.execMeasuringChange level s
  | .sampleTake => Sys2Proof.Machine.execSampleTake s
  | .forceSample side valid force => Sys2Proof.Machine.execForceSample side valid force s
  | .positionSample side valid position => Sys2Proof.Machine.execPositionSample side valid position s
  | .encoderPulse which a b => Sys2Proof.Machine.execEncoderPulse which a b s
  | .moveTimerExpiry => Sys2Proof.Machine.execMoveTimerExpiry s
  | .retractTimerExpiry => Sys2Proof.Machine.execRetractTimerExpiry s
  | .fillComplete record => Sys2Proof.Machine.execFillComplete record s
  | .coefWriteComplete => Sys2Proof.Machine.execCoefWriteComplete s
  | .paramOpTimeout => Sys2Proof.Machine.execParamOpTimeout s
  | .tripLineChange line level => Sys2Proof.Machine.execTripLineChange line level s
  | .loopOpen => Sys2Proof.Machine.execLoopOpen s
  | .loopClosing => Sys2Proof.Machine.execLoopClosing s
  | .servoFlt asserted => Sys2Proof.Machine.execServoFlt asserted s

end Sys2Proof.Machine
end

