-- ==== Sys2Proof/Machine/Ticks.lean ====
section
/-! DEFINITION. What happens while no command waits (log 2, 3): internal events that are due are
placed in the queue, and otherwise one millisecond passes. -/

namespace Sys2Proof.Machine

/-! ## Internal events that are due (log 3) -/

/-- A take is due while a segment is open and the FIFO holds samples (R83). -/
def takeDue (n : Node) : List Instr :=
  if n.track.openSeg.isSome && !n.meas.fifo.isEmpty then [.sampleTake] else []

/-- The node's own open switch opens a loop still sensed closed (R162, log 30); no event is due in a reset,
so where the switch opened with the reset the loop-open comes after its end (R188, log 46). -/
def ownLoopDue (c : Settings) (n : Node) : List Instr :=
  if n.switchOpen c && n.pins.loopClosed then [.loopOpen] else []

/-- The internal events that are due now. -/
def dueEvents (c : Settings) (n : Node) : List Instr :=
  takeDue n ++ n.startup.standing.map Instr.standingCondition ++ ownLoopDue c n

/-- Events drawn one after the other in a free order (log 4); `k` counts the draws made. -/
def drawOrder (fuel k : Nat) (xs : List Instr) : List Instr :=
  match fuel, xs with
  | 0, _ => xs
  | _, [] => []
  | _, [x] => [x]
  | fuel + 1, x :: y :: rest =>
    let ys := x :: y :: rest
    let i := Config.freeOrder k % ys.length
    ys.getD i x :: drawOrder fuel (k + 1) (ys.eraseIdx i)

/-- The number of draws that a list of events takes. -/
def drawCount (xs : List Instr) : Nat := xs.length - 1

/-- Events that fall together placed in the queue. -/
def State.place (xs : List Instr) (s : State) : State :=
  { s with pending := s.pending ++ drawOrder xs.length s.node.freeIndex xs
           node := { s.node with freeIndex := s.node.freeIndex + drawCount xs } }

/-! ## One millisecond (log 2) -/

/-- A running timer one millisecond later. -/
def tickTimer (t : Option Nat) : Option Nat := t.map (· - 1)

/-- A LOADING slot's idle timer one millisecond later (R128). -/
def tickSlot : Slot → Slot
  | .loading l => .loading { l with timer := l.timer - 1 }
  | s => s

/-- The most read operations that the image takes: each reads a byte of its 90 at least (R189, R198,
log 28). -/
def imageOpsMost : Nat := 90

/-- The read of the image one millisecond later: the present operation ends and the next begins with its
own 20 ms, or the present one has a millisecond less (R189, log 28). -/
def ImageRead.tick (ends : Bool) (r : ImageRead) : ImageRead :=
  if ends && r.begun < imageOpsMost then { left := 20, begun := r.begun + 1 }
  else { r with left := r.left - 1 }

/-- Every running timer one millisecond later, and the clock. -/
def tickNode (n : Node) : Node :=
  { n with
    memb := { n.memb with
      beaconTimer := tickTimer n.memb.beaconTimer
      seekTimer := tickTimer n.memb.seekTimer
      graceTimer := tickTimer n.memb.graceTimer
      upstream := { n.memb.upstream with timer := tickTimer n.memb.upstream.timer }
      downstream := { n.memb.downstream with timer := tickTimer n.memb.downstream.timer } }
    gap := { n.gap with timer := tickTimer n.gap.timer, opTimer := tickTimer n.gap.opTimer }
    sched := { n.sched with slots := mapFour tickSlot n.sched.slots }
    startup := { n.startup with
      imageRead := n.startup.imageRead.map (ImageRead.tick (Config.imageOpEnds n.freeIndex)) }
    clock := n.clock + 1
    freeIndex := if n.startup.imageRead.isSome then n.freeIndex + 1 else n.freeIndex }

/-- A row, where a timer has run out. -/
def whenOut (t : Option Nat) (i : Instr) : List Instr := if timerOut t then [i] else []

/-- The row of the supervision timer: a move's or a retract's (R146, R147). -/
def supervisionRow (g : GapControl) : Instr :=
  if g.supervision = .retracting then .retractTimerExpiry else .moveTimerExpiry

/-- The return timeout of the oldest outstanding entry has elapsed (R21). -/
def returnDue (c : Settings) (n : Node) : List Instr :=
  match n.ring.outstanding with
  | e :: _ => if returnElapsed c n e then [.returnTimeout] else []
  | [] => []

/-- The rows of the timers that have run out. -/
def expiries (c : Settings) (n : Node) : List Instr :=
  returnDue c n ++ whenOut n.memb.beaconTimer .beaconTimerExpiry ++
  whenOut n.memb.seekTimer .seekTimerExpiry ++
  whenOut n.memb.upstream.timer (.livenessTimerExpiry .upstream) ++
  whenOut n.memb.downstream.timer (.livenessTimerExpiry .downstream) ++
  whenOut n.memb.graceTimer .ringBreakGraceExpiry ++
  whenOut (slotTimer n.sched.slots.x0) (.schedIdleTimeout 0) ++
  whenOut (slotTimer n.sched.slots.x1) (.schedIdleTimeout 1) ++
  whenOut (slotTimer n.sched.slots.x2) (.schedIdleTimeout 2) ++
  whenOut (slotTimer n.sched.slots.x3) (.schedIdleTimeout 3) ++
  whenOut n.gap.timer (supervisionRow n.gap) ++ whenOut n.gap.opTimer .paramOpTimeout ++
  whenOut (n.startup.imageRead.map (·.left)) .configReadTimeout

/-- One millisecond passes. -/
def State.tick (s : State) : State :=
  let n := tickNode s.node
  (s.withNode n).place (expiries s.settings n)

/-- The step on an empty queue: nothing in a reset, the loop-open of the node's own switch included (log 25,
46); internal events that are due; otherwise a millisecond (log 2, 3). -/
def State.idle (s : State) : State :=
  if s.inReset then s
  else match dueEvents s.settings s.node with
    | [] => s.tick
    | xs => s.place xs

end Sys2Proof.Machine
end

