-- ==== Sys2Proof/WellFormed.lean ====
section
/-! DEFINITION. Well-formed commands: operands that a sender can carry. The meanings are total and
need none of it; a malformed command is one that no sender sends. -/

namespace Sys2Proof

/-- A station that may send, 1 to 30 (R1). -/
def sourceWf (b : Byte) : Bool := 1 ≤ b.toNat && b.toNat ≤ 30

/-- A destination, a station or ALL (R5). -/
def destWf (b : Byte) : Bool := 1 ≤ b.toNat && b.toNat ≤ 31

/-- The header of a frame that has passed R5. -/
def Header.wf (h : Header) : Bool := sourceWf h.source && destWf h.dest

/-- A claim's header fields as R5 admits them. -/
def ClaimHeader.wf (h : ClaimHeader) : Bool := destWf h.dest && h.hop.toNat ≤ 32

/-- What a memory read delivers has the length of what is read. -/
def MemRead.wf (length : Nat) : MemRead → Bool
  | .stored => true
  | .delivered bs => bs.length = length

/-- A well-formed command. -/
def Instr.wf : Instr → Bool
  | .configReadEnd image => image.wf 90
  | .fillComplete record => record.wf 9
  | .frameArrival bytes => 9 ≤ bytes.length && bytes.length ≤ 57
  | .claimOwnSource h => h.wf
  | .beaconReceived h _ | .segReceived h _ | .markReceived h _ | .tripReceived h _ => h.wf
  | .objectWrite h _ value => h.wf && value.length ≤ 16
  | .schedSection h _ _ content => h.wf && 1 ≤ content.length && content.length ≤ 25
  | .tripClearStation h station => h.wf && station ≠ 31
  | .standCommandPreset h | .standCommandQuiet h | .nextSchedule h _ | .slotFree h _ | .gapTrim h _
  | .ffEnable h _ | .monitorEnable h _ | .coefEntryWrite h _ _ _ _ | .coefEntryRead h _ _
  | .tripClearAll h | .faultCountsClear h _ _ | .faultSummaryClear h _ | .nodeReset h _
  | .schedOpen h _ _ | .schedClose h _ _ => h.wf
  | .resetAssert _ | .resetEnd _ _ | .configReadTimeout | .standingCondition _ | .ownFrameReturn _
  | .transmitEnd | .returnTimeout | .carrierLock | .carrierLoss | .beaconTimerExpiry
  | .seekTimerExpiry | .livenessTimerExpiry _ | .ringBreakGraceExpiry | .schedIdleTimeout _
  | .gaugeSample _ _ | .measuringChange _ | .sampleTake | .forceSample _ _ _ | .positionSample _ _ _
  | .encoderPulse _ _ _ | .moveTimerExpiry | .retractTimerExpiry | .coefWriteComplete
  | .paramOpTimeout | .tripLineChange _ _ | .loopOpen | .loopClosing | .servoFlt _ => true

end Sys2Proof
end

