-- ==== Sys2Proof/Safety.lean ====
section
/-! DEFINITION. What statements about the machine speak of: the frame of a command, the conditions on
the transmit side, and the invariants. -/

namespace Sys2Proof.Machine

/-! ## Frames -/

/-- The parts of a node. -/
inductive Block where
  | ring | memb | dir | meas | track | seq | sched | gap | trip | flt | startup | pins | clock
  | freeIndex
deriving DecidableEq, Repr

/-- Two nodes agree in a part. -/
def Node.agree (n m : Node) : Block → Prop
  | .ring => m.ring = n.ring
  | .memb => m.memb = n.memb
  | .dir => m.dir = n.dir
  | .meas => m.meas = n.meas
  | .track => m.track = n.track
  | .seq => m.seq = n.seq
  | .sched => m.sched = n.sched
  | .gap => m.gap = n.gap
  | .trip => m.trip = n.trip
  | .flt => m.flt = n.flt
  | .startup => m.startup = n.startup
  | .pins => m.pins = n.pins
  | .clock => m.clock = n.clock
  | .freeIndex => m.freeIndex = n.freeIndex

/-- A node keeps every part that is not listed. -/
def Node.keepsBut (bs : List Block) (n m : Node) : Prop := ∀ b : Block, b ∉ bs → n.agree m b

/-- From `s` to `t`, the settings, the parameter memory, the queue of commands and every part of the
node that is not listed are unchanged. -/
def State.keepsBut (bs : List Block) (s t : State) : Prop :=
  t.settings = s.settings ∧ t.paramMem = s.paramMem ∧ t.pending = s.pending ∧
    s.node.keepsBut bs t.node

/-! ## Conditions -/

/-- No reset is under way (R188). -/
def State.live (s : State) : Prop := s.node.startup.phase ≠ .inReset

/-- A frame is being sent, no fault event waits, and the insert queue has room for `k` frames: what
is offered then joins the queue and nothing else moves on the transmit side. -/
def State.roomFor (k : Nat) (s : State) : Prop :=
  s.node.ring.sending.isSome = true ∧ s.node.flt.raised = [] ∧ s.node.ring.insertQueue.length + k ≤ 16

/-- The transmit side from `s` to `t`: given room, the frames `fs` join the tail of the insert queue,
and neither the rest of the Ring Port nor the Fault Unit changes. -/
def State.offers (fs : List OwnFrame) (s t : State) : Prop :=
  s.roomFor fs.length →
    t.node.ring = { s.node.ring with insertQueue := s.node.ring.insertQueue ++ fs } ∧
      t.node.flt = s.node.flt

/-- A request's header is one that local delivery hands on now (R11). -/
def State.hands (s : State) (h : Header) : Prop :=
  handed s.settings h.source h.dest s.node = true

/-- A write to an object passes every step of admission (R49). -/
def State.admitsWrite (s : State) (h : Header) (index : Nat) : Prop :=
  s.hands h ∧ writeRefused s.settings h index (valueSize index) s.node = none

/-- A SCHED frame is handed on, from a station of the authority list (R124). -/
def State.admitsSched (s : State) (h : Header) : Prop :=
  s.hands h ∧ inAuthority s.settings h.source = true

/-- The header of a command that stands for a frame handed on by local delivery (R11, log 1). -/
def deliveredHeader : Instr → Option Header
  | .beaconReceived h _ | .objectWrite h _ _ | .standCommandPreset h | .standCommandQuiet h
  | .nextSchedule h _ | .slotFree h _ | .gapTrim h _ | .ffEnable h _ | .monitorEnable h _
  | .coefEntryWrite h _ _ _ _ | .coefEntryRead h _ _ | .tripClearStation h _ | .tripClearAll h
  | .faultCountsClear h _ _ | .faultSummaryClear h _ | .nodeReset h _ | .schedOpen h _ _
  | .schedSection h _ _ _ | .schedClose h _ _ | .segReceived h _ | .markReceived h _
  | .tripReceived h _ => some h
  | _ => none

/-- A REPLY without a value (R47, R196). -/
def answerFrame (h : Header) (index : Byte) (status : Byte) : OwnFrame :=
  { kind := .reply, dest := h.source, payload := [h.tag, index, status, 0], fatal := false }

/-- The ECHO that a write taken DONE offers, where the object's changed flag is clear (R55, R56). -/
def echoOffered (flag : Bool) (index : Byte) (value : List Byte) : List OwnFrame :=
  if flag then []
  else [{ kind := .echo, dest := 31, payload := index :: byte value.length :: value, fatal := false }]

/-- The BEACON with a node's values now (R33, R196). -/
def Node.beacon (c : NodeConfig) (n : Node) : OwnFrame :=
  { kind := .beacon, dest := 31, fatal := false
    payload :=
      [byte c.standIndex, n.seq.stand.code,
        packFlags [n.seq.stand.strip, n.seq.stand.stopped, n.seq.holds.any], byte n.sched.activeId] ++
      halfBytes n.track.lastClosed ++
      [byte (match n.trip.active with | some o => o.station | none => 0)] }

/-! ## Faults -/

/-- The report level and the budget let a FAULT frame be offered for an event (R183, R184). -/
def offersFault (c : Settings) (ev : FaultEvent) (f : FaultUnit) : Bool :=
  ev.stand ≠ .starting && levelAdmits c.config.reportLevel ev.cls &&
  (c.config.reportBudget = 0 || f.budgetCount < c.config.reportBudget)

/-- The report level admits an event whose frame the budget suppresses (R184). -/
def suppressesFault (c : Settings) (ev : FaultEvent) (f : FaultUnit) : Bool :=
  ev.stand ≠ .starting && levelAdmits c.config.reportLevel ev.cls &&
  0 < c.config.reportBudget && c.config.reportBudget ≤ f.budgetCount

/-- The Fault Unit after an event has been handled whole (R179 to R184). -/
def FaultUnit.after (c : Settings) (ev : FaultEvent) (f : FaultUnit) : FaultUnit :=
  { counters := bumpAt f.counters (ev.code.number - 1)
    first := some (f.first.getD
      { code := ev.code, cls := ev.cls, stand := ev.stand, number := ev.number })
    budgetCount := if offersFault c ev f then min (f.budgetCount + 1) 255 else f.budgetCount
    budgetExceeded := f.budgetExceeded || suppressesFault c ev f
    offered := if offersFault c ev f then satInc f.offered else f.offered
    suppressed := if suppressesFault c ev f then satInc f.suppressed else f.suppressed
    raised := [] }

/-- The insert queue after the FAULT frame of an event has been offered, given room: a FATAL frame
stands at the head, any other at the tail (R14, R183). -/
def queueAfter (c : Settings) (m : RingState) (ev : FaultEvent) (f : FaultUnit) (q : List OwnFrame) :
    List OwnFrame :=
  let frame := faultFrame ev ((f.after c ev).counter ev.code)
  if offersFault c ev f && m.admits .fault then
    (if ev.cls = .fatal then frame :: q else q ++ [frame])
  else q

/-- From `s` to `t`, given room, one fault event of `code`, raised at the node `n`, is counted,
recorded and reported, and neither the rest of the Ring Port nor of the Fault Unit changes. -/
def State.reports (code : FaultCode) (n : Node) (s t : State) : Prop :=
  s.roomFor 1 →
    t.node.flt = s.node.flt.after s.settings (eventOf code n) ∧
    t.node.ring = { s.node.ring with
      insertQueue := queueAfter s.settings n.memb.ring (eventOf code n) s.node.flt
        s.node.ring.insertQueue }

/-! ## Trips -/

/-- A stand state before a trip, with an empty origin record (R165). -/
def Node.untripped (n : Node) : Prop :=
  n.seq.stand ≠ .starting ∧ n.seq.stand.stopped = false ∧ n.trip.active = none ∧
    n.trip.pending = none

/-- The reactions of the blocks to trip entry (R167), from a node to a node. -/
def Node.tripsTo (c : Settings) (n m : Node) : Prop :=
  m.seq = { n.seq with stand := .tripped, holds := Holds.empty } ∧
  m.memb = { n.memb with graceTimer := none } ∧
  m.dir = { n.dir with table := n.dir.table.eraseP isPreset } ∧
  m.meas = { n.meas with
    fifo := [], hold := false, overload := false, reversal := none
    flushedSamples := satAdd n.meas.flushedSamples n.meas.fifo.length } ∧
  m.track = { n.track with
    exitTrack := [], openSeg := none, running := false, arrival := [], headWaiting := false
    expected := none, weldList := [], baseline := none
    counts := { n.track.counts with
      exitDiscarded := satAdd n.track.counts.exitDiscarded n.track.exitTrack.length
      arrivalDiscarded := satAdd n.track.counts.arrivalDiscarded n.track.arrival.length } } ∧
  m.sched = { n.sched with slots := mapFour Slot.disarm n.sched.slots, profile := none } ∧
  m.gap = { n.gap with
    base := some c.config.retractGap, reference := c.config.retractGap, supervision := .retracting
    target := c.config.retractGap, timer := some c.config.retractTimeout, profileTrim := 0
    clampMark := false, waiting := none
    moves := if n.gap.supervision = .moving then
        { n.gap.moves with abandoned := satInc n.gap.moves.abandoned } else n.gap.moves }

/-- The ABORTED replies that trip entry offers to a ring state (R53, R13). -/
def abortReplies (n : Node) : List OwnFrame :=
  if n.memb.ring.admits .reply then
    (n.dir.table.find? isPreset).toList.map
      (fun e => replyFrame e.requester e.tag e.index .aborted [])
  else []

/-- From a node before a trip to a node: a local cause of a kind and detail has placed the own origin
in the active place, and the stand has entered TRIPPED (R163, R167). -/
def Node.tripsOn (c : Settings) (kind detail : Byte) (n m : Node) : Prop :=
  n.tripsTo c m ∧
  m.trip = { n.trip with
    active := some { station := c.station, standIndex := c.config.standIndex, causeKind := kind,
                     detail := detail, number := n.track.current }
    tripEntries := satInc n.trip.tripEntries } ∧
  m.startup = n.startup ∧ m.pins = n.pins ∧ m.clock = n.clock ∧ m.freeIndex = n.freeIndex

/-- The TRIP frame of such an own origin (R163, R196). -/
def causeFrame (c : Settings) (kind detail : Byte) (n : Node) : OwnFrame :=
  { kind := .trip, dest := 31, fatal := false
    payload := [byte c.station, byte c.config.standIndex, kind, detail] ++ halfBytes n.track.current }

/-- From `s` to `t`: a FATAL fault of `code`, raised at the node `n`, trips the stand; given room, its
TRIP frame takes the trip slot, an aborted PRESET is answered, and the event is reported (R163, R179,
R182). -/
def State.tripsByFault (code : FaultCode) (n : Node) (s t : State) : Prop :=
  n.tripsOn s.settings 2 (byte code.number) t.node ∧
  (s.roomFor 2 →
    t.node.flt = s.node.flt.after s.settings (eventOf code n) ∧
    t.node.ring = { s.node.ring with
      tripSlot := some (causeFrame s.settings 2 (byte code.number) n)
      insertQueue := queueAfter s.settings n.memb.ring (eventOf code n) s.node.flt
        (s.node.ring.insertQueue ++ abortReplies n) })

/-- The Trip Unit after a local cause in TRIPPED or LOCKOUT (R163, R165): a local repeat where an origin
of this node is recorded; otherwise the new origin takes the first empty place, or is counted as dropped. -/
def TripUnit.afterCause (station : Nat) (o : Origin) (t : TripUnit) : TripUnit :=
  if t.recorded station then { t with localRepeats := satInc t.localRepeats }
  else match t.active, t.pending with
    | none, _ => { t with active := some o }
    | some _, none => { t with pending := some o }
    | some _, some _ => { t with dropped := satInc t.dropped }

/-- The trip slot after a local cause in TRIPPED or LOCKOUT: a new own origin's TRIP frame takes it
(R16, R163). -/
def slotAfter (c : Settings) (kind detail : Byte) (n : Node) : Option OwnFrame :=
  if n.trip.recorded c.station then n.ring.tripSlot else some (causeFrame c kind detail n)

/-- From `s` to `t`, in TRIPPED or LOCKOUT: a FATAL fault of `code`, raised at the node `n`, is a local
cause for the Trip Unit, and given room the event is reported (R163, R165, R179). -/
def State.repeatsFault (code : FaultCode) (n : Node) (s t : State) : Prop :=
  t.node.trip =
    n.trip.afterCause s.settings.station (ownOrigin s.settings 2 (byte code.number) n) ∧
  (s.roomFor 1 →
    t.node.flt = s.node.flt.after s.settings (eventOf code n) ∧
    t.node.ring = { s.node.ring with
      tripSlot := slotAfter s.settings 2 (byte code.number) n
      insertQueue := queueAfter s.settings n.memb.ring (eventOf code n) s.node.flt
        s.node.ring.insertQueue })

/-- From `s` to `t`, RING_BREAK is raised (R22, R37, R38). Outside the strip states it is CORRECTABLE and
only reported. In them, with the route HOLD, it sets hold cause RING, which starts the grace timer where RING
was clear, counts the hold and freezes the trims where no cause was set (R39, R116, R117); with the route TRIP
it trips the stand. -/
def State.breaksRing (s t : State) : Prop :=
  let n := s.node
  (n.seq.stand.strip = false → s.keepsBut [.ring, .flt] t ∧ s.reports .ringBreak n t) ∧
  (n.seq.stand.strip = true → s.settings.config.route = .hold →
    s.keepsBut [.memb, .seq, .gap, .ring, .flt] t ∧ s.reports .ringBreak n t ∧
    t.node.memb = { n.memb with
      graceTimer := if n.seq.holds.ring then n.memb.graceTimer
        else some s.settings.config.ringBreakGrace } ∧
    t.node.seq = { n.seq with
      holds := { n.seq.holds with ring := true }
      holdCount := if n.seq.holds.any then n.seq.holdCount else satInc n.seq.holdCount } ∧
    t.node.gap = (if n.seq.holds.any then n.gap else { n.gap with
      frozenTrim := n.gap.gapTrim, frozenProfile := n.gap.profileTrim })) ∧
  (n.seq.stand.strip = true → s.settings.config.route = .trip → n.untripped →
    s.tripsByFault .ringBreak n t)

/-- The reactions of the blocks to entry to QUIET from PRESET, READY or TAILING (R110), the request table
aside. -/
def Node.quietsTo (c : Settings) (n m : Node) : Prop :=
  m.seq = { n.seq with stand := .quiet, holds := Holds.empty } ∧
  m.memb = { n.memb with graceTimer := none } ∧
  m.dir.changed = ChangedFlags.clear ∧
  m.meas = { n.meas with
    fifo := [], hold := false, overload := false, reversal := none
    flushedSamples := satAdd n.meas.flushedSamples n.meas.fifo.length } ∧
  m.track = { n.track with
    arrival := [], headWaiting := false, expected := none, weldList := [], baseline := none
    counts := { n.track.counts with
      arrivalDiscarded := satAdd n.track.counts.arrivalDiscarded n.track.arrival.length } } ∧
  m.sched = { n.sched with profile := none } ∧
  m.gap = ({ n.gap with
    base := some c.config.standbyGap, ff := 0, monitor := 0, profileTrim := 0
    clampMark := false, waiting := none } : GapControl).refer c.config c.config.standbyGap

/-! ## The reference (R139, R145) -/

/-- The value of a gap demand clamped to the gap limits of a schedule, bounds included. -/
def clamped (r : Schedule) (d : Int) : Int := max (r.gapMin : Int) (min r.gapMax d)

/-- A demand lies within the gap limits of a schedule. -/
def within (r : Schedule) (d : Int) : Prop := (r.gapMin : Int) ≤ d ∧ d ≤ r.gapMax

/-- The Gap Controller once a reference has been placed on GAP_REF (R145): a change above the step
threshold starts a move in IDLE and supersedes one in MOVING, with the full timeout; a smaller one in
MOVING only carries the target along. -/
def GapControl.placed (c : NodeConfig) (r : Nat) (g : GapControl) : GapControl :=
  let far : Bool := c.stepThreshold < ((r : Int) - g.reference).natAbs
  if g.supervision = .idle ∧ far then
    { g with reference := r, supervision := .moving, target := r, timer := some c.moveTimeout,
             moves := { g.moves with started := satInc g.moves.started } }
  else if g.supervision = .moving ∧ far then
    { g with reference := r, target := r, timer := some c.moveTimeout,
             moves := { g.moves with superseded := satInc g.moves.superseded } }
  else if g.supervision = .moving ∧ r ≠ g.reference then { g with reference := r, target := r }
  else { g with reference := r }

/-! ## Hold end (R117, R118) -/

/-- The demand of a strip state without a hold, from a base: the terms that R106 admits in the stand state
and the stored trims (R117). -/
def Node.unheldDemand (n : Node) (base : Nat) : Int :=
  (base : Int) + (if n.seq.stand = .threading then 0 else n.gap.ff + n.gap.monitor) +
    (n.gap.gapTrim + n.gap.profileTrim)

/-- Going over to the causes `h` takes the hold-cause set from not empty to empty in a strip state (R118). -/
def Node.holdEndsAt (n : Node) (h : Holds) : Bool := n.seq.stand.strip && n.seq.holds.any && !h.any

/-- From a node to a node, the Gap Controller at hold end: the demand is reassembled with the stored trims,
the clamp mark follows, and the clamped value is placed on GAP_REF (R117, R139, R145). -/
def Node.reassembled (c : NodeConfig) (n m : Node) : Prop :=
  ∀ id r, n.sched.active = some (id, r) → ∀ b, n.gap.base = some b →
    let d := n.unheldDemand b
    m.gap = ({ n.gap with
      unclamped := d, clampMark := d < r.gapMin || (r.gapMax : Int) < d } : GapControl).placed c
        (clamped r d).toNat

/-- The reassembly at hold end sets the clamp mark from clear (R139). -/
def Node.holdEndClamps (n : Node) : Bool :=
  match n.sched.active, n.gap.base with
  | some (_, r), some b =>
    !n.gap.clampMark && (n.unheldDemand b < r.gapMin || (r.gapMax : Int) < n.unheldDemand b)
  | _, _ => false

/-- From `s` to `t`, the causes become `h`: where that is hold end the demand is reassembled, and
DEMAND_CLAMPED is raised where its clamp mark becomes set; otherwise the Gap Controller is unchanged
(R117, R118, R139). -/
def State.recovers (h : Holds) (s t : State) : Prop :=
  t.node.seq = { s.node.seq with holds := h } ∧
  (s.node.holdEndsAt h = true → s.node.reassembled s.settings.config t.node ∧
    (if s.node.holdEndClamps then s.reports .demandClamped s.node t else s.offers [] t)) ∧
  (s.node.holdEndsAt h = false → t.node.gap = s.node.gap ∧ s.offers [] t)

/-! ## Applications (R96, R97, R134, R140) -/

/-- At the first hand-over of a record the ff term needs a coefficient (R140): in ROLLING with no hold, with
feedforward effective and a deviation `d`, the one of the tag of the ACTIVE class and the force band. -/
def Node.ffLooks (r : ArrivalRecord) (d : Int) (tag : CoefTag) (n : Node) : Prop :=
  n.seq.stand = .rolling ∧ n.seq.holds.any = false ∧ n.gap.ffEnable = true ∧ r.deviation = some d ∧
    ∃ id sc, n.sched.active = some (id, sc) ∧ sc.ffAllowed = true ∧ tag = ⟨sc.pclass, n.meas.band⟩

/-- A record is accepted at its first hand-over with the ff term `v` (R140): as it stands outside ROLLING and
in a hold; 0 without effective feedforward or without a deviation; and otherwise, with the coefficient in the
cache, coefficient times deviation over 1,000, truncated. -/
def Node.ffTakes (r : ArrivalRecord) (v : Int) (n : Node) : Prop :=
  (n.seq.stand ≠ .rolling ∨ n.seq.holds.any = true) ∧ v = n.gap.ff ∨
  n.seq.stand = .rolling ∧ n.seq.holds.any = false ∧ v = 0 ∧
    (n.gap.ffEnable = false ∨ r.deviation = none ∨
      ∀ id sc, n.sched.active = some (id, sc) → sc.ffAllowed = false) ∨
  ∃ d tag k, n.ffLooks r d tag ∧ n.gap.cached tag = some k ∧ v = (k.ff * d).tdiv 1000

/-- An accepted segment number takes the profile to `run` and the profile trim to `trim` (R134): of the
entries still to be reached, the highest that the number has reached gives its trim and the one after it
comes next; where none is reached, and with the profile idle, both stay. -/
def Node.profileTakes (number : Half) (run : Option ProfilePos) (trim : Int) (n : Node) : Prop :=
  match n.sched.profile with
  | none => run = none ∧ trim = n.gap.profileTrim
  | some p =>
    let left := (n.sched.profileOf p.id).drop (p.nextEntry - 1)
    (∃ j offset, left[j]? = some (offset, trim) ∧ entryReached p.weld number offset = true ∧
      (∀ x ∈ left.drop (j + 1), entryReached p.weld number x.1 = false) ∧
      run = some { p with nextEntry := p.nextEntry + j + 1 }) ∨
    ((∀ x ∈ left, entryReached p.weld number x.1 = false) ∧ run = some p ∧ trim = n.gap.profileTrim)

/-! ## Closing and publication (R84 to R92, R142) -/

/-- The true remaining distance of a record at an EXIT count (R90). -/
def remainingAt (c : NodeConfig) (count : Pos) (x : ExitRecord) : Nat :=
  c.biteDistance - (count - x.spanStart).toInt.toNat

/-- The SEG of a record with a remaining distance (R89, R196). -/
def segOf (c : NodeConfig) (remaining : Nat) (x : ExitRecord) : OwnFrame :=
  { kind := .seg, dest := byte c.downstream, fatal := false
    payload := halfBytes x.number ++ halfBytes x.coil ++ intBytes (x.deviation.getD 0) ++
      [byte x.sampleCount, packFlags [x.head, x.weld, x.tail, x.offgauge, x.beyond]] ++
      natBytes remaining ++ [byte x.scheduleId, byte c.standIndex] }

/-- The MARK of a record (R91, R196). -/
def markOf (c : NodeConfig) (x : ExitRecord) : OwnFrame :=
  { kind := .mark, dest := byte c.downstream, fatal := false
    payload := halfBytes x.number ++ natBytes c.segLength ++ [byte c.markInterval, byte c.standIndex] }

/-- The frames of records that are published, each with its remaining distance, and with the MARK that R91
asks for where they are published on time. -/
def publication (c : NodeConfig) (onTime : Bool) (remaining : ExitRecord → Nat) (xs : List ExitRecord) :
    List OwnFrame :=
  xs.flatMap (fun x => segOf c (remaining x) x ::
    if onTime && c.markInterval ≠ 0 && x.number.toNat % c.markInterval = 0 then [markOf c x] else [])

/-- The true mean of a segment's thickness above the exit target, times its GOOD count (R86). -/
def OpenSegment.excess (r : Schedule) (g : OpenSegment) : Int := (g.sum : Int) - r.exitTarget * g.good

/-- The deviation that a segment closes with (R86). -/
def OpenSegment.mean (r : Schedule) (g : OpenSegment) : Option Int :=
  if g.good = 0 then none else some (max (-2000) (min 2000 ((g.excess r).tdiv g.good)))

/-- The exit record of a segment closed under an ACTIVE schedule (R86, R87). -/
def OpenSegment.closedAs (c : NodeConfig) (id : Nat) (r : Schedule) (tail : Bool) (g : OpenSegment)
    (y : ExitRecord) : Prop :=
  y.number = g.number ∧ y.coil = g.coil ∧ y.head = g.head ∧ y.weld = g.weld ∧ y.tail = tail ∧
  y.scheduleId = id ∧ y.sampleCount = min g.good 255 ∧ y.deviation = g.mean r ∧
  y.spanStart = g.spanStart ∧ y.due = g.spanStart + mm (c.biteDistance - c.publishLead) ∧
  (y.beyond = true ↔ g.good ≠ 0 ∧ 2000 * g.good < (g.excess r).natAbs) ∧
  (y.offgauge = true ↔ g.good ≠ 0 ∧ r.offGauge * g.good < (g.excess r).natAbs)

/-- From a node to a node, the monitor updates of `k` closes in ROLLING of which only the first may have a
deviation (R142): a hold and a lookup that misses only count a skip, a missed tag being queued for a fill
where there is room; without effect of the monitor the term is 0; a mean of none changes nothing; a hit takes
coefficient times deviation over 1,000, truncated, from the accumulator, held within ±5,000. -/
def Node.monitored (r : Schedule) (mean : Option Int) (k : Nat) (n m : Node) : Prop :=
  let tag : CoefTag := ⟨r.pclass, n.meas.band⟩
  (n.seq.stand ≠ .rolling → m.gap = n.gap) ∧
  (n.seq.stand = .rolling →
    (n.seq.holds.any = true → m.gap = { n.gap with
      counts := { n.gap.counts with holdSkips := satAdd n.gap.counts.holdSkips k } }) ∧
    (n.seq.holds.any = false → n.gap.monitorEnable = false ∨ r.monitorAllowed = false →
      m.gap.monitor = 0 ∧ (n.gap.monitor = 0 → m.gap = n.gap)) ∧
    (n.seq.holds.any = false → n.gap.monitorEnable = true → r.monitorAllowed = true →
      (mean = none → m.gap = n.gap) ∧
      (mean ≠ none → n.gap.cached tag = none →
        m.gap.monitor = n.gap.monitor ∧ m.gap.reference = n.gap.reference ∧
        m.gap.counts = { n.gap.counts with
          misses := satInc n.gap.counts.misses, missSkips := satInc n.gap.counts.missSkips } ∧
        m.gap.queue = (if ParamOp.fill tag ∈ n.gap.queue ∨ 4 ≤ n.gap.queue.length then n.gap.queue
          else n.gap.queue ++ [.fill tag])) ∧
      (∀ d, mean = some d → ∀ coef, n.gap.cached tag = some coef →
        let v := max (-5000) (min 5000 (n.gap.monitor - ((coef.mon : Int) * d).tdiv 1000))
        m.gap.monitor = v ∧ m.gap.lastCoefs = some coef ∧
        (v = n.gap.monitor → m.gap.reference = n.gap.reference) ∧
        (v ≠ n.gap.monitor → ∀ b, n.gap.base = some b →
          (m.gap.reference : Int) =
            clamped r (b + n.gap.ff + v + n.gap.gapTrim + n.gap.profileTrim)))))

/-- From `s` to `t`, a closing record joins the exit track (R90). A full track first gives up its head, with
its true remaining distance and no MARK, and raises EXIT_TRACK_FULL; where the record is already due, it and
the due records ahead of it are published on time with their true remaining distances. Frames that the ring
state does not admit are counted as refused. The frames are stated where no DEMAND_CLAMPED comes with a
monitor update, and that EXIT_TRACK_FULL is reported before the record joins is the model's choice (log 53). -/
def State.joins (y : ExitRecord) (s t : State) : Prop :=
  let n := s.node
  let tr := n.track
  let c := s.settings.config
  let full : Bool := 48 ≤ tr.exitTrack.length
  let early := if full then tr.exitTrack.take 1 else []
  let all := tr.exitTrack.drop early.length ++ [y]
  let due (x : ExitRecord) : Bool := reaches n.meas.exitCount x.due
  let gone := if due y then all.takeWhile due else []
  let remaining := remainingAt c n.meas.exitCount
  let first := publication c false remaining early
  let later := publication c true remaining gone
  t.node.track.exitTrack = all.drop gone.length ∧
  t.node.track.counts.published = satAdd tr.counts.published (early.length + gone.length) ∧
  (t.node.gap.clampMark = n.gap.clampMark →
    (n.memb.ring.admits .seg = true → full = false →
      s.offers later t ∧
      (s.roomFor later.length → t.node.track.counts.publishRefused = tr.counts.publishRefused)) ∧
    (n.memb.ring.admits .seg = true → full = true → s.roomFor (2 + later.length) →
      let ev := eventOf .exitTrackFull n
      t.node.flt = n.flt.after s.settings ev ∧
      t.node.ring = { n.ring with
        insertQueue :=
          queueAfter s.settings n.memb.ring ev n.flt (n.ring.insertQueue ++ first) ++ later } ∧
      t.node.track.counts.publishRefused = tr.counts.publishRefused) ∧
    (n.memb.ring.admits .seg = false →
      t.node.track.counts.publishRefused =
        satAdd tr.counts.publishRefused (first.length + later.length) ∧
      (if full then s.reports .exitTrackFull n t else s.offers [] t)))

/-- From `s` to `t`, the open segment `g` closes under an ACTIVE schedule, `k` further segments open and close
with no samples, and the next one of the run opens (R80, R81, R84 to R87, R142). Records that find room and
are not yet due wait in the exit track, in the order of their numbers; one record alone joins it by R90. -/
def State.closesRun (id : Nat) (r : Schedule) (g : OpenSegment) (k : Nat) (s t : State) : Prop :=
  let n := s.node
  let tr := n.track
  let c := s.settings.config
  let span (j : Nat) : Pos := tr.origin + mm ((g.index + j) * c.segLength)
  let dueAt (start : Pos) : Pos := start + mm (c.biteDistance - c.publishLead)
  t.node.track.lastClosed = (if k = 0 then g.number else tr.nextNumber + BitVec.ofNat 16 (k - 1)) ∧
  t.node.track.nextNumber = tr.nextNumber + BitVec.ofNat 16 (k + 1) ∧
  t.node.track.counts.closed = satAdd tr.counts.closed (k + 1) ∧
  (∃ g', t.node.track.openSeg = some g' ∧ g'.number = tr.nextNumber + BitVec.ofNat 16 k ∧
    g'.index = g.index + k + 1 ∧ g'.head = false ∧ g'.spanStart = span (k + 1)) ∧
  n.monitored r (g.mean r) (k + 1) t.node ∧
  (tr.exitTrack.length + k < 48 →
    reaches n.meas.exitCount (dueAt g.spanStart) = false →
    (∀ j < k, reaches n.meas.exitCount (dueAt (span (j + 1))) = false) →
    (∃ y ys, g.closedAs c id r false y ∧ t.node.track.exitTrack = tr.exitTrack ++ y :: ys ∧
      ys.length = k ∧
      ∀ j z, ys[j]? = some z →
        z.number = tr.nextNumber + BitVec.ofNat 16 j ∧ z.head = false ∧ z.tail = false ∧
        z.scheduleId = id ∧ z.deviation = none ∧ z.sampleCount = 0 ∧ z.beyond = false ∧
        z.offgauge = false ∧ z.spanStart = span (j + 1) ∧ z.due = dueAt (span (j + 1)) ∧
        (tr.weldList = [] → z.weld = false ∧ z.coil = tr.exitCoil)) ∧
    t.node.track.counts.published = tr.counts.published ∧
    (t.node.gap.clampMark = n.gap.clampMark → s.offers [] t)) ∧
  (k = 0 → ∃ y, g.closedAs c id r false y ∧ s.joins y t)

/-! ## Invariants -/

/-- The parameter memory is in its canonical form. -/
def State.memoryCanonical (s : State) : Prop := memWf s.paramMem = true

/-- No fault event waits to be handled (R179). -/
def State.settled (s : State) : Prop := s.node.flt.raised = []

/-- A free link has no frame to send (R17). -/
def State.linkServed (s : State) : Prop :=
  s.node.ring.pump (byte s.settings.station) s.node.memb.ring = s.node.ring

/-- There is a fault counter for each of the 32 codes (R180). -/
def State.countersWhole (s : State) : Prop := s.node.flt.counters.length = 32

/-- Start-up that has not ended leaves the stand in STARTING, and it goes on past the straps with a valid
station number only (R189, R190). -/
def State.startupHolds (s : State) : Prop :=
  (s.node.startup.phase = .reading ∨ s.node.startup.phase = .invalid → s.node.seq.stand = .starting) ∧
  (s.node.startup.phase = .reading ∨ s.node.startup.phase = .running →
    1 ≤ s.settings.station ∧ s.settings.station ≤ 30)

/-- The law of a reset and of the image's read: in a reset no parameter operation waits (R188); the image
is being read in the phase of that name only, an operation of it has at most its 20 ms left (R189), and no
more operations have begun than the image has bytes (log 28). -/
def State.resetLaw (s : State) : Prop :=
  (s.node.startup.phase = .inReset → s.node.gap.queue = []) ∧
  (s.node.startup.imageRead.isSome = true ↔ s.node.startup.phase = .reading) ∧
  (∀ r, s.node.startup.imageRead = some r → r.left ≤ 20 ∧ 1 ≤ r.begun ∧ r.begun ≤ 90)

/-- Outside a reset, TRIPPED and LOCKOUT hold the reference at the retract gap (R147). -/
def State.retractHeld (s : State) : Prop :=
  s.live → s.node.seq.stand.stopped = true →
    s.node.gap.reference = s.settings.config.retractGap ∧
      s.node.gap.base = some s.settings.config.retractGap

/-- The law of the origin record (R165): no pending origin without an active one, no station twice, and
nothing recorded outside TRIPPED and LOCKOUT. -/
def State.originLaw (s : State) : Prop :=
  (s.node.trip.pending ≠ none → s.node.trip.active ≠ none) ∧
  (∀ a p, s.node.trip.active = some a → s.node.trip.pending = some p → a.station ≠ p.station) ∧
  (s.node.seq.stand.stopped = false →
    s.node.trip.active = none ∧ s.node.trip.pending = none ∧ s.node.trip.dropped = 0)

/-- The collections hold no more than their rules allow (R12, R14, R20, R51, R64, R88, R89, R94, R153),
and with E unset the arrival queue is empty (R94). -/
def State.bounded (s : State) : Prop :=
  s.node.ring.passBuffer.length ≤ 6 ∧ s.node.ring.insertQueue.length ≤ 16 ∧
  s.node.ring.outstanding.length ≤ 8 ∧ s.node.dir.table.length ≤ 4 ∧
  s.node.meas.fifo.length ≤ 32 ∧ s.node.track.weldList.length ≤ 4 ∧
  s.node.track.exitTrack.length ≤ 48 ∧ s.node.track.arrival.length ≤ 16 ∧
  s.node.gap.queue.length ≤ 4 ∧ (s.node.track.expected = none → s.node.track.arrival = [])

/-- The number of slots in a state. -/
def slotCount (p : Slot → Bool) (v : Four Slot) : Nat := (listFour v).countP p

/-- A slot is ACTIVE. -/
def Slot.isActive : Slot → Bool
  | .active _ _ => true
  | _ => false

/-- A slot is PENDING. -/
def Slot.isPending : Slot → Bool
  | .pending _ _ => true
  | _ => false

/-- The law of the slots (R123): at most one is ACTIVE, at most one is PENDING, a PENDING one only in
ROLLING, and an id is held by at most one slot. -/
def State.slotLaw (s : State) : Prop :=
  slotCount Slot.isActive s.node.sched.slots ≤ 1 ∧ slotCount Slot.isPending s.node.sched.slots ≤ 1 ∧
  (s.node.seq.stand ≠ .rolling → slotCount Slot.isPending s.node.sched.slots = 0) ∧
  (∀ id, slotCount (fun x => x.id = some id) s.node.sched.slots ≤ 1)

/-- The law of the reference (R139): slots hold validated schedules (R123), PRESET, READY and the strip
states have an ACTIVE schedule and a base, and in a strip state, outside a reset, the reference lies
within the ACTIVE gap limits. -/
def State.gapLaw (s : State) : Prop :=
  (∀ x ∈ listFour s.node.sched.slots, ∀ r, x.record = some r → r.valid = true) ∧
  (s.node.seq.stand = .preset ∨ s.node.seq.stand = .ready ∨ s.node.seq.stand.strip = true →
    s.node.sched.active.isSome = true ∧ s.node.gap.base.isSome = true) ∧
  (s.live → s.node.seq.stand.strip = true → ∀ id r, s.node.sched.active = some (id, r) →
    r.gapMin ≤ s.node.gap.reference ∧ s.node.gap.reference ≤ r.gapMax)

/-- The conservation law of the exit track (R103): with the counts unsaturated, the segments closed are
those published, those discarded and those held. -/
def State.trackConserved (s : State) : Prop :=
  s.node.track.counts.closed < 65535 →
    s.node.track.counts.closed =
      s.node.track.counts.published + s.node.track.counts.exitDiscarded + s.node.track.exitTrack.length

/-- The tags that fills in the parameter request queue read. -/
def fillTags (q : List ParamOp) : List CoefTag :=
  q.filterMap (fun o => match o with | .fill t => some t | .write _ _ => none)

/-- The law of the cache and the queue (R150): no set holds two valid ways with one tag, no two fills of
one tag wait, no fill waits for a tag that is valid in the cache; and, outside a reset, a wanted fill
(R141) waits for a full queue that holds no fill of its tag. -/
def State.cacheLaw (s : State) : Prop :=
  (∀ x ∈ s.node.gap.cache, ∀ a b, x.way0 = some a → x.way1 = some b → a.tag ≠ b.tag) ∧
  (fillTags s.node.gap.queue).Nodup ∧
  (∀ t ∈ fillTags s.node.gap.queue, s.node.gap.cached t = none) ∧
  (s.live → ∀ w, s.node.gap.waiting = some w → w.wanted = true →
    4 ≤ s.node.gap.queue.length ∧ w.tag ∉ fillTags s.node.gap.queue ∧ s.node.gap.cached w.tag = none)

end Sys2Proof.Machine
end

