-- ==== Sys2Proof/Certificates/Slice0/Obligations.lean ====
section
/-! DEFINITION. The statements about the machine, for the provers: one or more for each command, the
machine's step, and the laws that every step keeps. A statement's docstring names the rules it rests on;
where a choice of the model enters, it names the log entry. -/

open Sys2Proof Sys2Proof.Machine

/-! ## The machine -/

/-- A step takes the command at the front of the queue and runs it on the machine with the queue's rest. -/
def Obligations.StepRunsFrontCommand : Prop :=
  ∀ (i : Instr) (rest : List Instr) (s : State),
    step { s with pending := i :: rest } = exec i { s with pending := rest }

/-- With no command waiting (log 2, 3, 4, 28, 30: the model's choice): in a reset nothing happens; where
internal events are due they join the queue in some order, and the node is unchanged but for the free
index; otherwise a millisecond passes, which takes one from every running timer and adds one to the clock,
and the rows of the timers that have run out join the queue in some order. -/
def Obligations.EmptyQueueLetsTimePass : Prop :=
  ∀ s : State, s.pending = [] → ∃ t k, step s = .next t ∧
    t.settings = s.settings ∧ t.paramMem = s.paramMem ∧
    (¬ s.live → t = s) ∧
    (s.live → dueEvents s.settings s.node ≠ [] →
      t.node = { s.node with freeIndex := k } ∧ t.pending.Perm (dueEvents s.settings s.node)) ∧
    (s.live → dueEvents s.settings s.node = [] →
      t.node = { tickNode s.node with freeIndex := k } ∧
      t.node.memb = { s.node.memb with
        beaconTimer := s.node.memb.beaconTimer.map (· - 1)
        seekTimer := s.node.memb.seekTimer.map (· - 1)
        graceTimer := s.node.memb.graceTimer.map (· - 1)
        upstream := { s.node.memb.upstream with timer := s.node.memb.upstream.timer.map (· - 1) }
        downstream := { s.node.memb.downstream with
          timer := s.node.memb.downstream.timer.map (· - 1) } } ∧
      t.node.gap = { s.node.gap with
        timer := s.node.gap.timer.map (· - 1), opTimer := s.node.gap.opTimer.map (· - 1) } ∧
      t.node.clock = s.node.clock + 1 ∧
      s.node.keepsBut [.memb, .gap, .sched, .startup, .clock, .freeIndex] t.node ∧
      t.pending.Perm (expiries s.settings (tickNode s.node)))

/-- Every command has an outcome in every state that goes on (log 24), and leaves the queue to the step. -/
def Obligations.EveryCommandAnswersNextState : Prop :=
  ∀ (i : Instr) (s : State), ∃ t, exec i s = .next t ∧ t.pending = s.pending

/-- The parameter memory keeps its canonical form through every step. -/
def Obligations.StepKeepsMemoryCanonical : Prop :=
  ∀ s t : State, s.memoryCanonical → step s = .next t → t.memoryCanonical

/-- After a reset nothing is listed in the memory, no fault event waits, every queue is empty, and the
laws of the machine hold. The reset state's levels and straps, and a memory with nothing listed, are the
model's choice (log 5, 9). -/
def Obligations.ResetStateSatisfiesLaws : Prop :=
  State.reset.paramMem = [] ∧ State.reset.node.ring.passBuffer = [] ∧
  State.reset.node.ring.insertQueue = [] ∧ State.reset.node.ring.outstanding = [] ∧
  State.reset.node.dir.table = [] ∧ State.reset.node.meas.fifo = [] ∧
  State.reset.node.track.exitTrack = [] ∧ State.reset.node.track.arrival = [] ∧
  State.reset.node.track.weldList = [] ∧ State.reset.node.gap.queue = [] ∧
  State.reset.resetLaw ∧ State.reset.memoryCanonical ∧ State.reset.settled ∧ State.reset.linkServed ∧
  State.reset.countersWhole ∧ State.reset.startupHolds ∧ State.reset.retractHeld ∧
  State.reset.originLaw ∧ State.reset.bounded ∧ State.reset.slotLaw ∧ State.reset.gapLaw ∧
  State.reset.trackConserved ∧ State.reset.cacheLaw ∧ State.reset.pending = []

/-- A fault event is handled whole within its step (R179), and there is a counter for each code
(R180): both hold after every step from a state in which they hold. -/
def Obligations.StepHandlesEveryFaultEvent : Prop :=
  ∀ s t : State, s.settled → s.countersWhole → step s = .next t → t.settled ∧ t.countersWhole

/-- The law of the origin record (R165) is kept by every step. -/
def Obligations.StepKeepsOriginLaw : Prop :=
  ∀ s t : State, s.originLaw → s.startupHolds → step s = .next t → t.originLaw ∧ t.startupHolds

/-- The law of the slots (R123) is kept by every step, and beside it the law of start-up (R189, R190),
which rules out a stand that has left STARTING before the image is accepted. -/
def Obligations.StepKeepsSlotLaw : Prop :=
  ∀ s t : State, s.slotLaw → s.startupHolds → step s = .next t → t.slotLaw ∧ t.startupHolds

/-- The laws of the reference are kept by every step: in a strip state GAP_REF lies within the gap limits
of the ACTIVE schedule (R139), and in TRIPPED and LOCKOUT it stays at the retract gap (R147). -/
def Obligations.StepKeepsReferenceLaws : Prop :=
  ∀ s t : State, step s = .next t →
    (s.gapLaw → t.gapLaw) ∧ (s.retractHeld → t.retractHeld)

/-- The conservation law of the exit track (R103) is kept by every step. -/
def Obligations.StepConservesExitRecords : Prop :=
  ∀ s t : State, s.trackConserved → step s = .next t → t.trackConserved

/-- No cache set holds a tag twice, and no two fills of one tag wait (R150): kept by every step. -/
def Obligations.StepKeepsCacheLaw : Prop :=
  ∀ s t : State, s.cacheLaw → step s = .next t → t.cacheLaw

/-- Every collection stays within its size (R12, R14, R20, R51, R64, R88, R89, R94, R153). -/
def Obligations.StepKeepsCollectionsBounded : Prop :=
  ∀ s t : State, s.bounded → step s = .next t → t.bounded

/-- Outside a reset the transmit link is never left idle while a frame can be sent (R17). -/
def Obligations.StepServesTransmitLink : Prop :=
  ∀ s t : State, (s.live → s.linkServed) → step s = .next t → t.live → t.linkServed

/-- What a frame is sent as (R4, R196) is what the receiver reads back (R5), for every frame whose
fields lie in their ranges. -/
def Obligations.SentFrameIsReadBack : Prop :=
  ∀ f : Frame, 1 ≤ f.source.toNat → f.source.toNat ≤ 30 → 1 ≤ f.dest.toNat → f.dest.toNat ≤ 31 →
    f.hop ≤ 32 → f.payload.length ≤ 48 → payloadAdmitted f.kind f.payload = true →
    judgeArrival f.encode = .intact f

/-- What a coefficient write stores (R198) is what a fill of its tag reads back as an intact record
(R150, R151), for every record in range; and the bytes outside the record's nine are as before. -/
def Obligations.StoredCoefficientIsReadBack : Prop :=
  ∀ (m : List Host.Cell) (r : CoefRecord), memWf m = true → r.inRange = true →
    recordRead r.tag (memReadBytes (memWriteBytes m r.tag.offset r.bytes) r.tag.offset 9) = some r ∧
    ∀ a, a < r.tag.offset ∨ r.tag.offset + 9 ≤ a →
      memRead (memWriteBytes m r.tag.offset r.bytes) a = memRead m a

/-! ## Start-up (R188 to R192) -/

/-- A reset begins (R188): the outputs take their reset levels, the frame on RING_TX is cut short and all
work under way is abandoned; nothing else of the node changes, and of the parameter memory only the
record of a coefficient write in service may change (its bytes are free values, log 10). -/
def Obligations.ResetAssertAbandonsWork : Prop :=
  ∀ (pin : ResetPin) (s : State), ∃ t, exec (.resetAssert pin) s = .next t ∧
    t.settings = s.settings ∧ t.pending = s.pending ∧
    (∀ a, memRead t.paramMem a = memRead s.paramMem a ∨
      ∃ r e ops, s.node.gap.queue = .write r e :: ops ∧ r.tag.offset ≤ a ∧ a < r.tag.offset + 9) ∧
    t.node.switchOpen t.settings = true ∧ t.node.configInvalid = false ∧
    ∃ k, t.node = { s.node with
      ring := { s.node.ring with sending := none }
      dir := { s.node.dir with table := [] }
      meas := { s.node.meas with hold := false }
      sched := { s.node.sched with slots := mapFour Slot.dropLoading s.node.sched.slots }
      gap := { s.node.gap with
        servoEn := false, reference := 0, supervision := .idle, timer := none, queue := []
        opTimer := none }
      startup := { s.node.startup with
        phase := .inReset, standing := [], imageRead := none
        porstSeen := (s.node.startup.phase = .inReset && s.node.startup.porstSeen) || pin = .porst }
      freeIndex := k }

/-- In a reset no command but a reset pin's assertion and the end of the reset has an effect beyond the
levels of the input lines (R188; that the lines are followed is the model's choice, log 25); and every step
keeps the law of a reset and of the image's read, by which no parameter operation waits in a reset (R188,
R189, log 28). -/
def Obligations.ResetHoldsTheNode : Prop :=
  (∀ (i : Instr) (s : State), ¬ s.live → s.resetLaw → (∀ pin, i ≠ .resetAssert pin) →
    (∀ station wp, i ≠ .resetEnd station wp) →
    ∃ t, exec i s = .next t ∧ t.settings = s.settings ∧ t.paramMem = s.paramMem ∧
      t.pending = s.pending ∧ t.node = { s.node with pins := t.node.pins }) ∧
  (∀ s t : State, s.resetLaw → step s = .next t → t.resetLaw)

/-- The end of a reset (R188, R189): the straps are read, every block takes its power-on values, the
reset cause and the soft-reset count are set, and start-up reads the image or, with station number 0 or
31, ends invalid. The configuration is unknown until an image is accepted; the values that stand for it
are the model's (log 6), and so is it that the row acts where no reset is under way (log 26). -/
def Obligations.ResetEndPowersOn : Prop :=
  ∀ (station : BitVec 5) (wp : Bool) (s : State), ∃ t, exec (.resetEnd station wp) s = .next t ∧
    t.settings.station = station.toNat ∧ t.settings.writeProtect = wp ∧
    t.paramMem = s.paramMem ∧ t.pending = s.pending ∧ t.node.pins = s.node.pins ∧
    t.node.startup.phase =
      (if 1 ≤ station.toNat ∧ station.toNat ≤ 30 then .reading else .invalid) ∧
    t.node.startup.cause = (if s.node.startup.porstSeen then .powerOn else .hard) ∧
    t.node.startup.softResets = 0 ∧ t.node.startup.standing = [] ∧
    t.node.startup.imageRead =
      (if 1 ≤ station.toNat ∧ station.toNat ≤ 30 then some { left := 20, begun := 1 } else none) ∧
    t.node.seq = { stand := .starting, holds := Holds.empty, holdCount := 0, tailIgnored := 0 } ∧
    t.node.memb = { Membership.powerOn with carrierLocked := s.node.pins.carrier } ∧
    t.node.ring = RingPort.powerOn ∧ t.node.dir = Directory.powerOn ∧ t.node.meas = Meas.powerOn ∧
    t.node.track = Tracking.powerOn ∧ t.node.sched = SchedStore.powerOn ∧
    t.node.gap = GapControl.powerOn ∧ t.node.trip = TripUnit.powerOn s.node.pins.lines ∧
    t.node.flt = FaultUnit.powerOn

/-- An accepted image takes the stand from STARTING to QUIET (R190, R192): the configuration holds, the base
and the reference are the standby gap with a move to it started, SERVO_EN follows SERVO_FLT, the report budget
is reset, the trip-line flags come from the start records, the load state and the tilt mark are those of the
accepted threshold and limit, the force band is that of the accepted edges where a force sample has been taken
in STARTING and is kept where none has (R79, log 7), the ring goes to CLAIMING where the carrier is locked,
and the conditions that stand wait to be taken. That the delivered image is taken into the memory is log 9's,
and that the conditions are listed once, with the loop always among them, and taken later is log 27's and 3's.
-/
def Obligations.AcceptedImageEntersQuiet : Prop :=
  ∀ (image : MemRead) (s : State), s.node.startup.phase = .reading →
    let mem := memTake s.paramMem 0 90 image
    let im := memReadBytes mem 0 90
    imageAccepted s.settings.station im = true →
    ∃ t, exec (.configReadEnd image) s = .next t ∧
      t.settings = { s.settings with config := configOf im } ∧ t.paramMem = mem ∧
      t.pending = s.pending ∧
      t.node.startup = { s.node.startup with
        phase := .running, imageRead := none
        standing := standingConditions (configOf im)
          { s.node with trip := { s.node.trip with
            lines := acceptLines (configOf im) s.node.trip.lines } } } ∧
      t.node.seq = { s.node.seq with stand := .quiet } ∧
      t.node.gap = { s.node.gap with
        base := some (configOf im).standbyGap, reference := (configOf im).standbyGap
        supervision := .moving, target := (configOf im).standbyGap
        timer := some (configOf im).moveTimeout, clampMark := false
        servoEn := !s.node.pins.servoFlt
        moves := { s.node.gap.moves with started := satInc s.node.gap.moves.started } } ∧
      t.node.meas = { s.node.meas with
        loadOn := decide ((configOf im).loadOn ≤ s.node.meas.forceOS.value + s.node.meas.forceDS.value)
        band := if s.node.meas.forceTaken then (configOf im).bandEdges.countP
            (· ≤ s.node.meas.forceOS.value + s.node.meas.forceDS.value)
          else s.node.meas.band
        forceTaken := false
        tiltMark := decide ((configOf im).tiltLimit <
          ((s.node.meas.posDS.value : Int) - s.node.meas.posOS.value).natAbs) } ∧
      t.node.trip = { s.node.trip with lines := acceptLines (configOf im) s.node.trip.lines } ∧
      t.node.memb = (if s.node.memb.carrierLocked then
          { s.node.memb with ring := .claiming, lockOk := true, beaconTimer := none }
        else s.node.memb) ∧
      s.node.keepsBut [.startup, .seq, .gap, .meas, .trip, .memb, .ring, .flt] t.node ∧
      (s.settled → t.node.flt = { s.node.flt with budgetCount := 0, budgetExceeded := false })

/-- An image that is refused, and a memory that is absent, end start-up invalid (R189, R190), and change
nothing else; outside the read of the image both commands change nothing (log 24). The delivered image is
taken into the memory (log 9), and the end of the read is placed by the sender (log 28). -/
def Obligations.RefusedOrAbsentImageEndsInvalid : Prop :=
  (∀ (image : MemRead) (s : State),
    let mem := memTake s.paramMem 0 90 image
    (s.node.startup.phase = .reading →
      imageAccepted s.settings.station (memReadBytes mem 0 90) = false →
      exec (.configReadEnd image) s = .next { s with
        paramMem := mem
        node := { s.node with startup := { s.node.startup with phase := .invalid, imageRead := none } } }) ∧
    (s.node.startup.phase ≠ .reading → exec (.configReadEnd image) s = .next s)) ∧
  (∀ s : State,
    (s.node.startup.phase = .reading →
      exec .configReadTimeout s = .next { s with
        node := { s.node with startup := { s.node.startup with phase := .invalid, imageRead := none } } }) ∧
    (s.node.startup.phase ≠ .reading → exec .configReadTimeout s = .next s))

/-- The conditions that stand after the entry to QUIET are taken (R192): from a stand before a trip, an
enabled trip line is a local cause of kind LINE; the loop found open records the unknown origin and trips the
stand without counting a loop-open; a load raises UNEXPECTED_LOAD in QUIET and PRESET; SERVO_FLT and an
invalid position side raise their faults; and a condition that is not in the list (log 24), or a loop by now
closed (log 27), has no effect. Once the stand is TRIPPED a line is a local repeat or a further own origin, an
open loop records the unknown origin only in an empty record, a load has no effect, and SERVO_FLT and a
position side are actuator faults that take the stand to LOCKOUT. -/
def Obligations.StandingConditionsAct : Prop :=
  ∀ (k : Standing) (s : State), s.live →
    let n := { s.node with startup := { s.node.startup with standing := s.node.startup.standing.erase k } }
    (s.node.startup.standing.contains k = false →
      ∃ t, exec (.standingCondition k) s = .next t ∧ s.keepsBut [.ring, .flt] t ∧ s.offers [] t) ∧
    (s.node.startup.standing.contains k = true → s.node.untripped →
      ∃ t, exec (.standingCondition k) s = .next t ∧ t.settings = s.settings ∧
        t.paramMem = s.paramMem ∧ t.pending = s.pending ∧
        match k with
        | .line i => n.tripsOn s.settings 1 (byte i.val) t.node
        | .load =>
          s.node.seq.stand = .quiet ∨ s.node.seq.stand = .preset → s.tripsByFault .unexpectedLoad n t
        | .servo => s.tripsByFault .servoFault n t
        | .position _ => s.tripsByFault .positionSensor n t
        | .loopSensedOpen =>
          if s.node.pins.loopClosed then t.node.startup = n.startup ∧ s.keepsBut [.startup, .ring, .flt] t
          else n.tripsTo s.settings t.node ∧
            t.node.trip = { s.node.trip with
              active := some { station := 0, standIndex := 0, causeKind := 0, detail := 0, number := 0 }
              tripEntries := satInc s.node.trip.tripEntries }) ∧
    (s.node.startup.standing.contains k = true → s.node.seq.stand = .tripped →
      ∃ t, exec (.standingCondition k) s = .next t ∧ t.node.startup = n.startup ∧
        let locked (code : FaultCode) : Prop :=
          t.node.seq = { n.seq with stand := .lockout } ∧ s.repeatsFault code n t ∧
          s.keepsBut [.startup, .seq, .trip, .ring, .flt] t
        match k with
        | .line i =>
          t.node.trip = n.trip.afterCause s.settings.station
            (ownOrigin s.settings 1 (byte i.val) n) ∧
          s.keepsBut [.startup, .trip, .ring, .flt] t ∧
          (s.roomFor 0 → t.node.flt = n.flt ∧
            t.node.ring = { n.ring with tripSlot := slotAfter s.settings 1 (byte i.val) n })
        | .load => s.keepsBut [.startup, .ring, .flt] t ∧ s.offers [] t
        | .servo => locked .servoFault
        | .position _ => locked .positionSensor
        | .loopSensedOpen =>
          t.node.trip = (if n.pins.loopClosed ∨ n.trip.active.isSome then n.trip
            else { n.trip with
              active := some
                { station := 0, standIndex := 0, causeKind := 0, detail := 0, number := 0 } }) ∧
          s.keepsBut [.startup, .trip, .ring, .flt] t ∧ s.offers [] t)

/-! ## Ring Port (R5 to R23) -/

/-- An arriving frame with a bad check raises FRAME_CHECK, and one with a good check but a bad header or
length raises FRAME_FORM; it is discarded, and nothing else happens (R5). In every stand state. How a list of
bytes too short for a frame, or with a length byte that differs from its payload, is judged is the model's
reading (log 11). -/
def Obligations.BadFrameIsDiscarded : Prop :=
  ∀ (bytes : List Byte) (s : State), s.live →
    (judgeArrival bytes = .badCheck →
      ∃ t, exec (.frameArrival bytes) s = .next t ∧ s.keepsBut [.ring, .flt] t ∧
        s.reports .frameCheck s.node t) ∧
    (judgeArrival bytes = .badForm →
      ∃ t, exec (.frameArrival bytes) s = .next t ∧ s.keepsBut [.ring, .flt] t ∧
        s.reports .frameForm s.node t)

/-- An intact frame from another station that is not delivered here, an orphan addressed to this node or to
ALL among them, and in STARTING every intact frame, is forwarded (R6, R10, R11, R12): with its hop count
increased it joins the tail of the pass-through buffer, or it is removed as an orphan, or a full buffer drops
it with PASS_OVERRUN; nothing else changes. Outside STARTING a frame from another station that is no orphan is
forwarded first and then has the effect of its kind's row, which judges for itself whether the frame is
delivered (R10, R11, R48; log 1); a REPLY, a FAULT, an ECHO and a CLAIM have none. -/
def Obligations.ForeignFrameIsForwarded : Prop :=
  (∀ (bytes : List Byte) (f : Frame) (s : State), s.live → judgeArrival bytes = .intact f →
    (s.node.seq.stand = .starting ∨
      (f.source ≠ byte s.settings.station ∧
        (f.dest ≠ byte s.settings.station ∧ f.dest ≠ 31 ∨
          s.node.memb.ring ≠ .seeking ∧ s.node.memb.ring ≠ .joined ∨ 32 ≤ f.hop + 1))) →
    ∃ t, exec (.frameArrival bytes) s = .next t ∧ s.keepsBut [.ring, .flt] t ∧
      (if 32 ≤ f.hop + 1 then s.reports .orphanRemoved s.node t
       else if s.node.ring.passBuffer.length < 6 then
         s.roomFor 0 → t.node.flt = s.node.flt ∧
           t.node.ring = { s.node.ring with
             passBuffer := s.node.ring.passBuffer ++ [{ f with hop := f.hop + 1 }] }
       else s.reports .passOverrun s.node t)) ∧
  (∀ (bytes : List Byte) (f : Frame) (s : State), s.live → judgeArrival bytes = .intact f →
    s.node.seq.stand ≠ .starting → f.source ≠ byte s.settings.station → f.hop + 1 < 32 →
    let arrives := exec (.frameArrival bytes) s
    let u := s.withNode (forward s.settings f s.node)
    let h : Header := { source := f.source, dest := f.dest, tag := f.tag }
    (∀ p : BeaconPayload, f.kind = .beacon →
      f.payload = [p.standIndex, p.standState, p.flags, p.scheduleId] ++ halfBytes p.lastClosed ++
        [p.originStation] → arrives = exec (.beaconReceived h p) u) ∧
    (∀ p : SegPayload, f.kind = .seg →
      f.payload = halfBytes p.number ++ halfBytes p.coil ++ halfBytes p.deviation ++
        [p.sampleCount, p.flags] ++ halfBytes p.remaining ++ [p.scheduleId, p.standIndex] →
      arrives = exec (.segReceived h p) u) ∧
    (∀ p : MarkPayload, f.kind = .mark →
      f.payload = halfBytes p.number ++ halfBytes p.length ++ [p.interval, p.standIndex] →
      arrives = exec (.markReceived h p) u) ∧
    (∀ p : TripPayload, f.kind = .trip →
      f.payload = [p.station, p.standIndex, p.causeKind, p.detail] ++ halfBytes p.number →
      arrives = exec (.tripReceived h p) u) ∧
    (∀ (index : Byte) (value : List Byte), f.kind = .wrreq →
      f.payload = index :: byte value.length :: value →
      arrives = exec (.objectWrite h index value) u) ∧
    (∀ pclass band : Byte, f.kind = .rdreq → f.payload = [13, pclass, band] →
      arrives = exec (.coefEntryRead h pclass band) u) ∧
    (∀ id count : Byte, f.kind = .sched → f.payload = [1, id, count] →
      arrives = exec (.schedOpen h id count) u) ∧
    (∀ (id number : Byte) (content : List Byte), f.kind = .sched →
      f.payload = 2 :: id :: number :: content →
      arrives = exec (.schedSection h id number content) u) ∧
    (∀ (id : Byte) (check : Half), f.kind = .sched → f.payload = [3, id] ++ halfBytes check →
      arrives = exec (.schedClose h id check) u) ∧
    (f.kind = .reply ∨ f.kind = .fault ∨ f.kind = .echo ∨ f.kind = .claim →
      s.node.ring.passBuffer.length < 6 →
      ∃ t, arrives = .next t ∧ s.keepsBut [.ring, .flt] t ∧
        (s.roomFor 0 → t.node.flt = s.node.flt ∧
          t.node.ring = { s.node.ring with
            passBuffer := s.node.ring.passBuffer ++ [{ f with hop := f.hop + 1 }] })))

/-- A read of IDENT (R59, R197): whatever the state of the node and whoever asks, the REPLY carries vendor
code 0x0F3A, part code 0x8440, revision 0x01, the strapped station number and the configured stand index,
and the read changes nothing; and the straps and the configured stand index change only where a reset ends
or an image is accepted. -/
def Obligations.IdentReadsFixedValues : Prop :=
  (∀ (bytes : List Byte) (f : Frame) (arg : Byte) (s : State), s.live →
    judgeArrival bytes = .intact f → f.kind = .rdreq → f.payload = [0, arg, 0] →
    s.hands f.header → f.hop + 1 < 32 → s.node.ring.passBuffer.length < 6 →
    s.settings.config.closures.getD 0 .openTo = .openTo →
    ∃ t, exec (.frameArrival bytes) s = .next t ∧ s.keepsBut [.ring, .flt] t ∧
      (s.roomFor 1 → t.node.flt = s.node.flt ∧
        t.node.ring = { s.node.ring with
          passBuffer := s.node.ring.passBuffer ++ [{ f with hop := f.hop + 1 }]
          insertQueue := s.node.ring.insertQueue ++
            [{ kind := .reply, dest := f.source, fatal := false
               payload := [f.tag, 0, 0, 7, 0x0F, 0x3A, 0x84, 0x40, 0x01, byte s.settings.station,
                 byte s.settings.config.standIndex] }] })) ∧
  (∀ s t : State, step s = .next t →
    (∀ station wp rest, s.pending ≠ .resetEnd station wp :: rest) →
    (∀ image rest, s.pending = .configReadEnd image :: rest → s.node.startup.phase ≠ .reading) →
    t.settings = s.settings)

/-- The reset cause (R195, R197): a read returns the cause and the soft-reset count as they stand, whatever
byte 1 of its argument, and changes nothing; the cause names the most recent reset: POWER_ON or HARD with
a count of 0 where a reset ends, and SOFT with the count increased where a soft reset is taken. That
RESET_END acts, and gives the cause by the mark of the last PORST, where no reset is under way too is log
26's choice. -/
def Obligations.ResetCauseIsReadAndKept : Prop :=
  (∀ (bytes : List Byte) (f : Frame) (arg : Byte) (s : State), s.live →
    judgeArrival bytes = .intact f → f.kind = .rdreq → f.payload = [23, arg, 0] →
    s.hands f.header → f.hop + 1 < 32 → s.node.ring.passBuffer.length < 6 →
    s.settings.config.closures.getD 23 .openTo = .openTo →
    ∃ t, exec (.frameArrival bytes) s = .next t ∧ s.keepsBut [.ring, .flt] t ∧
      (s.roomFor 1 → t.node.flt = s.node.flt ∧
        t.node.ring = { s.node.ring with
          passBuffer := s.node.ring.passBuffer ++ [{ f with hop := f.hop + 1 }]
          insertQueue := s.node.ring.insertQueue ++
            [{ kind := .reply, dest := f.source, fatal := false
               payload := [f.tag, 23, 0, 3,
                 (match s.node.startup.cause with | .powerOn => 0 | .hard => 1 | .soft => 2)] ++
                 halfBytes (BitVec.ofNat 16 s.node.startup.softResets) }] })) ∧
  (∀ (station : BitVec 5) (wp : Bool) (s : State), ∃ t, exec (.resetEnd station wp) s = .next t ∧
    t.node.startup.cause = (if s.node.startup.porstSeen then .powerOn else .hard) ∧
    t.node.startup.softResets = 0) ∧
  (∀ (h : Header) (s : State), s.live → s.admitsWrite h 21 → s.node.seq.stand.quietish = true →
    ∃ t, exec (.nodeReset h 1) s = .next t ∧ t.node.startup.cause = .soft ∧
      t.node.startup.softResets = min (s.node.startup.softResets + 1) 65535)

/-- A returned own frame other than a CLAIM (R8, R9), outside STARTING: the first outstanding entry with its
tag goes, and with it every older one, each raising OWN_FRAME_LOST; where none has the tag the list stays and
the return is counted unmatched; the consecutive-loss count becomes 0 and RING_OPEN is cleared. A return that
clears RING_OPEN while the break record is OPEN makes the record NONE, which clears hold cause RING with its
grace timer, and as the last cause to go in a strip state ends the hold, which reassembles the demand (R37,
R38, R39, R117, R118); any other leaves the record, the holds and the demand. In STARTING the row does
nothing, since R6 forwards the frame there (log 1, 24). An own frame other than a CLAIM given as FRAME_ARRIVAL
is this row (log 1). -/
def Obligations.OwnFrameReturnMatchesEntry : Prop :=
  ∀ (tag : Byte) (s : State), s.live →
    let heals : Bool := s.node.memb.ringOpen && s.node.memb.breakRecord = .ringOpen
    let holds : Holds := { s.node.seq.holds with ring := s.node.seq.holds.ring && !heals }
    let record : BreakRecord := if heals then .none else s.node.memb.breakRecord
    let grace : Option Nat :=
      if heals && s.node.seq.holds.ring then none else s.node.memb.graceTimer
    (s.node.seq.stand = .starting →
      ∃ t, exec (.ownFrameReturn tag) s = .next t ∧ s.keepsBut [.ring, .flt] t ∧ s.offers [] t) ∧
    (s.node.seq.stand ≠ .starting → s.node.ring.sending.isSome = true →
      ∃ t, exec (.ownFrameReturn tag) s = .next t ∧
        t.node.ring.lossCount = 0 ∧ t.node.memb.ringOpen = false ∧ t.node.memb.ring = s.node.memb.ring ∧
        (∀ older e younger, s.node.ring.outstanding = older ++ e :: younger → e.tag = tag →
          (∀ x ∈ older, x.tag ≠ tag) →
          t.node.ring.outstanding = younger ∧
            t.node.ring.unmatchedCount = s.node.ring.unmatchedCount ∧
            (s.settled → s.countersWhole → t.node.flt.counter .ownFrameLost =
              if older = [] then s.node.flt.counter .ownFrameLost
              else satAdd (s.node.flt.counter .ownFrameLost) older.length)) ∧
        ((∀ x ∈ s.node.ring.outstanding, x.tag ≠ tag) →
          t.node.ring.outstanding = s.node.ring.outstanding ∧
            t.node.ring.unmatchedCount = satInc s.node.ring.unmatchedCount)) ∧
    (s.node.seq.stand ≠ .starting →
      ∃ t, exec (.ownFrameReturn tag) s = .next t ∧
        s.keepsBut [.memb, .seq, .gap, .ring, .flt] t ∧
        t.node.memb.breakRecord = record ∧ t.node.memb.graceTimer = grace ∧
        t.node.seq = { s.node.seq with holds := holds } ∧
        (s.node.holdEndsAt holds = true → s.node.reassembled s.settings.config t.node) ∧
        (s.node.holdEndsAt holds = false → t.node.gap = s.node.gap)) ∧
    (∀ (out : List OutEntry) (unmatched : Nat), s.node.seq.stand ≠ .starting →
      (∃ e, s.node.ring.outstanding = e :: out ∧ e.tag = tag ∧
          unmatched = s.node.ring.unmatchedCount) ∨
        (∀ e ∈ s.node.ring.outstanding, e.tag ≠ tag) ∧ out = s.node.ring.outstanding ∧
          unmatched = satInc s.node.ring.unmatchedCount →
      let b : State := { s with node := { s.node with
        memb := { s.node.memb with ringOpen := false, breakRecord := record, graceTimer := grace }
        ring := { s.node.ring with outstanding := out, unmatchedCount := unmatched, lossCount := 0 } } }
      ∃ t, exec (.ownFrameReturn tag) s = .next t ∧ b.keepsBut [.seq, .gap, .ring, .flt] t ∧
        b.recovers holds t) ∧
    (s.node.seq.stand ≠ .starting → s.node.memb.ringOpen = false →
      (∀ e ∈ s.node.ring.outstanding, e.tag ≠ tag) →
      ∃ t, exec (.ownFrameReturn tag) s = .next t ∧ s.keepsBut [.ring, .flt] t ∧
        (s.roomFor 0 → t.node.flt = s.node.flt ∧
          t.node.ring = { s.node.ring with
            lossCount := 0, unmatchedCount := satInc s.node.ring.unmatchedCount })) ∧
    (∀ (bytes : List Byte) (f : Frame), judgeArrival bytes = .intact f →
      s.node.seq.stand ≠ .starting → f.source = byte s.settings.station → f.kind ≠ .claim →
      f.tag = tag → exec (.frameArrival bytes) s = exec (.ownFrameReturn tag) s)

/-- A CLAIM that carries this node's number (R6, R7, R27 to R29). Outside STARTING, while a CLAIM is out, the
matching clean return in CLAIMING sets CLAIM_OK and enters SEEKING, with the heard-in-seek marks cleared, the
seek timer at 25 beacon intervals, a BEACON offered and the beacon timer started (R32); with the objection
marker it enters CONFLICT, which stops the timers, empties the outstanding list and the insert queue, keeps
the phase flags, and raises STATION_CONFLICT: CORRECTABLE outside the strip states, and FATAL in them, which
trips the stand whatever the route; one whose tag matches no entry is counted unmatched and has no further
effect but that of any return. While no CLAIM is out, the objection marker is set, the frame is forwarded, and
CLAIM_OBJECTED is raised. In STARTING it is forwarded with its marker as received. A CLAIM given as
FRAME_ARRIVAL is this row (log 1). -/
def Obligations.OwnNumberClaimsAreSorted : Prop :=
  (∀ (h : ClaimHeader) (e : OutEntry) (more : List OutEntry) (s : State), s.live →
     claimInRange h = true → s.node.seq.stand ≠ .starting → s.node.memb.ring = .claiming →
     s.node.ring.outstanding = e :: more → e.kind = .claim → e.tag = h.tag →
     s.node.memb.ringOpen = false → s.node.ring.sending.isSome = true →
     ∃ t, exec (.claimOwnSource h) s = .next t ∧ t.settings = s.settings ∧
       t.paramMem = s.paramMem ∧ t.pending = s.pending ∧
       (h.objection = false →
         t.node.memb = { s.node.memb with
           ring := .seeking, claimOk := true
           seekTimer := some (25 * s.settings.config.beaconInterval)
           beaconTimer := some s.settings.config.beaconInterval
           upstream := { s.node.memb.upstream with heardInSeek := false }
           downstream := { s.node.memb.downstream with heardInSeek := false } } ∧
         t.node.ring.outstanding = more ∧ t.node.ring.lossCount = 0 ∧
         s.keepsBut [.memb, .ring, .flt] t ∧
         (s.roomFor 1 → t.node.flt = s.node.flt ∧
           t.node.ring = { s.node.ring with
             outstanding := more, lossCount := 0
             insertQueue := s.node.ring.insertQueue ++ [s.node.beacon s.settings.config] })) ∧
       (h.objection = true →
         let b : State := { s with node := { s.node with
           memb := { s.node.memb with ring := .conflict, beaconTimer := none, seekTimer := none }
           ring := { s.node.ring with
             outstanding := [], insertQueue := [], lossCount := 0, passRun := 0
             flushedCount := satAdd s.node.ring.flushedCount s.node.ring.insertQueue.length } } }
         t.node.memb.ring = .conflict ∧ t.node.memb.beaconTimer = none ∧ t.node.memb.seekTimer = none ∧
         t.node.memb.lockOk = s.node.memb.lockOk ∧ t.node.memb.claimOk = s.node.memb.claimOk ∧
         t.node.ring.outstanding = [] ∧ t.node.ring.insertQueue = [] ∧ t.node.ring.lossCount = 0 ∧
         (s.node.seq.stand.strip = false →
           b.keepsBut [.ring, .flt] t ∧ b.reports .stationConflict b.node t) ∧
         (s.node.seq.stand.strip = true → s.node.untripped →
           b.tripsByFault .stationConflict b.node t))) ∧
  (∀ (h : ClaimHeader) (s : State), s.live → claimInRange h = true → h.hop.toNat + 1 < 32 →
     s.node.ring.passBuffer.length < 6 →
     (s.node.seq.stand ≠ .starting → claimOut s.node = false →
       ∃ t, exec (.claimOwnSource h) s = .next t ∧ s.keepsBut [.ring, .flt] t ∧
         (s.roomFor 1 →
           t.node.flt = s.node.flt.after s.settings (eventOf .claimObjected s.node) ∧
           t.node.ring = { s.node.ring with
             passBuffer := s.node.ring.passBuffer ++
               [{ kind := .claim, source := byte s.settings.station, dest := h.dest, tag := h.tag
                  hop := h.hop.toNat + 1, objection := true, payload := [h.standIndex] }]
             insertQueue := queueAfter s.settings s.node.memb.ring (eventOf .claimObjected s.node)
               s.node.flt s.node.ring.insertQueue })) ∧
     (s.node.seq.stand = .starting →
       ∃ t, exec (.claimOwnSource h) s = .next t ∧ s.keepsBut [.ring, .flt] t ∧
         (s.roomFor 0 → t.node.flt = s.node.flt ∧
           t.node.ring = { s.node.ring with
             passBuffer := s.node.ring.passBuffer ++
               [{ kind := .claim, source := byte s.settings.station, dest := h.dest, tag := h.tag
                  hop := h.hop.toNat + 1, objection := h.objection, payload := [h.standIndex] }] }))) ∧
  (∀ (h : ClaimHeader) (s : State), s.live → claimInRange h = true → s.node.seq.stand ≠ .starting →
     claimOut s.node = true → (∀ e ∈ s.node.ring.outstanding, e.tag ≠ h.tag) →
     s.node.memb.ringOpen = false →
     ∃ t, exec (.claimOwnSource h) s = .next t ∧ s.keepsBut [.ring, .flt] t ∧
       (s.roomFor 0 → t.node.flt = s.node.flt ∧
         t.node.ring = { s.node.ring with
           lossCount := 0, unmatchedCount := satInc s.node.ring.unmatchedCount })) ∧
  (∀ (bytes : List Byte) (f : Frame) (standIndex : Byte) (s : State), s.live →
     judgeArrival bytes = .intact f → f.source = byte s.settings.station → f.kind = .claim →
     f.payload = [standIndex] →
     exec (.frameArrival bytes) s = exec (.claimOwnSource
       { dest := f.dest, tag := f.tag, hop := byte f.hop, objection := f.objection
         standIndex := standIndex }) s)

/-- A transmission ends and the arbiter takes the first case of Table 1-4 that applies (R17): the trip
slot, the pass-through head, the insert-queue head, or nothing. An own frame takes the tag counter's value
and the counter advances (R2, R3), the pass-through run follows R18, and a tracked frame joins the
outstanding list, whose entry for the frame just sent takes the time (R19). -/
def Obligations.TransmitEndSelectsNextFrame : Prop :=
  ∀ (x : Sending) (s : State), s.live → s.settled → s.node.ring.sending = some x →
    let r := s.node.ring
    let m := s.node.memb.ring
    let out := if x.tracked then r.outstanding.map (stampEntry x.frame.tag s.node.clock)
      else r.outstanding
    let own (o : OwnFrame) (tracked : Bool) : Sending :=
      { frame := { kind := o.kind, source := byte s.settings.station, dest := o.dest
                   tag := r.tagCounter, hop := 0, objection := false, payload := o.payload }
        tracked := tracked }
    let joined (o : OwnFrame) (tracked : Bool) : List OutEntry :=
      if tracked then out ++ [{ tag := r.tagCounter, kind := o.kind, sentAt := none }] else out
    let eligible : Bool := !r.insertQueue.isEmpty &&
      (m = .broken || (m = .claiming || m = .seeking || m = .joined) && r.outstanding.length < 8)
    ∃ t, exec .transmitEnd s = .next t ∧ s.keepsBut [.ring] t ∧
      match (if m = .seeking ∨ m = .joined ∨ m = .broken then r.tripSlot else none), r.passBuffer,
          r.insertQueue with
      | some o, _, _ =>
        let tr : Bool := (m = .seeking || m = .joined) && r.outstanding.length < 8
        t.node.ring = { r with
          tripSlot := none, tagCounter := r.tagCounter + 1, passRun := 0
          sending := some (own o tr), outstanding := joined o tr }
      | none, f :: pass, ins =>
        if r.passRun < 8 ∨ eligible = false then
          t.node.ring = { r with
            passBuffer := pass, outstanding := out
            passRun := if eligible then min (r.passRun + 1) 8 else r.passRun
            sending := some { frame := f, tracked := false } }
        else ∃ o more, ins = o :: more ∧
          t.node.ring = { r with
            insertQueue := more, tagCounter := r.tagCounter + 1, passRun := 0
            sending := some (own o (m ≠ .broken)), outstanding := joined o (m ≠ .broken) }
      | none, [], o :: ins =>
        if eligible then
          t.node.ring = { r with
            insertQueue := ins, tagCounter := r.tagCounter + 1, passRun := 0
            sending := some (own o (m ≠ .broken)), outstanding := joined o (m ≠ .broken) }
        else t.node.ring = { r with sending := none, outstanding := out }
      | none, [], [] => t.node.ring = { r with sending := none, outstanding := out }

/-- The return timeout of the oldest entry, where the limit stands (R21, R22, R27, R37): the entry is
removed as lost with OWN_FRAME_LOST, and at once every following one whose own time has elapsed; each adds
to the consecutive-loss count. The loss that brings the count to 3 in JOINED with RING_OPEN clear sets
RING_OPEN and the break record OPEN, and raises RING_BREAK: reported outside the strip states, and in them a
hold with cause RING and its grace timer, or a trip, by the route (R38, R39); a lost CLAIM in CLAIMING is
counted and offered anew. The row acts on an entry whose timeout has elapsed (log 2); where no entry is out, no
limit stands, the oldest entry's transmission has not ended, or its time has not yet run out, nothing happens
(log 24). -/
def Obligations.ReturnTimeoutLosesOldestEntry : Prop :=
  ∀ (s : State), s.live →
    (∀ e more, s.node.ring.outstanding = e :: more → s.node.ring.sending.isSome = true →
      ∀ sent limit, e.sentAt = some sent → returnLimit s.settings s.node = some limit →
      sent + limit ≤ s.node.clock →
      ∃ t, exec .returnTimeout s = .next t ∧
        t.node.ring.outstanding = more.dropWhile (returnElapsed s.settings s.node) ∧
        t.node.ring.lossCount =
          satAdd s.node.ring.lossCount (1 + (more.takeWhile (returnElapsed s.settings s.node)).length) ∧
        (s.node.memb.ring = .joined → s.node.memb.ringOpen = false → s.node.ring.lossCount < 3 →
          3 ≤ t.node.ring.lossCount →
          t.node.memb.ringOpen = true ∧ t.node.memb.breakRecord = .ringOpen) ∧
        ((∀ x, more.head? = some x → returnElapsed s.settings s.node x = false) →
          let third := satInc s.node.ring.lossCount = 3 ∧ s.node.memb.ring = .joined ∧
            s.node.memb.ringOpen = false
          (third → t.node.memb.ringOpen = true ∧ t.node.memb.breakRecord = .ringOpen ∧
            (s.settled →
              let lost := eventOf .ownFrameLost s.node
              let b : State := { s with node := { s.node with
                memb := { s.node.memb with ringOpen := true, breakRecord := .ringOpen }
                ring := { s.node.ring with
                  outstanding := more, lossCount := 3
                  insertQueue := queueAfter s.settings s.node.memb.ring lost s.node.flt
                    s.node.ring.insertQueue }
                flt := s.node.flt.after s.settings lost } }
              b.breaksRing t)) ∧
          (¬ third → e.kind ≠ .claim ∨ s.node.memb.ring ≠ .claiming →
            s.keepsBut [.ring, .flt] t ∧
            (s.roomFor 1 →
              t.node.flt = s.node.flt.after s.settings (eventOf .ownFrameLost s.node) ∧
              t.node.ring = { s.node.ring with
                outstanding := more, lossCount := satInc s.node.ring.lossCount
                insertQueue := queueAfter s.settings s.node.memb.ring (eventOf .ownFrameLost s.node)
                  s.node.flt s.node.ring.insertQueue })) ∧
          (e.kind = .claim → s.node.memb.ring = .claiming →
            t.node.memb = { s.node.memb with claimResends := satInc s.node.memb.claimResends } ∧
            s.keepsBut [.memb, .ring, .flt] t ∧
            (s.roomFor 1 →
              t.node.ring.insertQueue = s.node.ring.insertQueue ++
                [{ kind := .claim, dest := 31, fatal := false
                   payload := [byte s.settings.config.standIndex] }])))) ∧
    (s.node.ring.outstanding = [] ∨ returnLimit s.settings s.node = none ∨
        (∃ e more, s.node.ring.outstanding = e :: more ∧
          (e.sentAt = none ∨ ∃ sent limit, e.sentAt = some sent ∧
            returnLimit s.settings s.node = some limit ∧ s.node.clock < sent + limit)) →
      ∃ t, exec .returnTimeout s = .next t ∧ s.keepsBut [.ring, .flt] t ∧ s.offers [] t)

/-- The carrier (R24 to R30, R37). A lock makes the status LOCKED; outside STARTING, DARK and BROKEN go to
CLAIMING, which sets LOCK_OK, stops the beacon timer, empties the insert queue, counts its frames as flushed
and offers a CLAIM; elsewhere only the status changes. A loss makes the status UNLOCKED and is counted;
CLAIMING and SEEKING go to DARK, which clears the phase flags and RING_OPEN, stops the timers and empties the
outstanding list and the insert queue; JOINED goes to BROKEN, which clears the flags, empties the outstanding
list, keeps the insert queue, sets the break record LINK and raises RING_BREAK; elsewhere only the status and
the count change. RING_BREAK is CORRECTABLE outside the strip states, and in them, by the route, sets hold
cause RING with its grace timer or trips the stand (R39, R116, R117). A lock or a loss already reported
changes nothing (log 21). -/
def Obligations.CarrierChangesMoveRingState : Prop :=
  (∀ s : State, s.live →
     ∃ t, exec .carrierLock s = .next t ∧ t.node.pins = { s.node.pins with carrier := true } ∧
       (if s.node.memb.carrierLocked then s.keepsBut [.pins, .ring, .flt] t ∧ s.offers [] t
        else if s.node.memb.ring = .dark ∧ s.node.seq.stand ≠ .starting ∨ s.node.memb.ring = .broken then
          t.node.memb = { s.node.memb with
            carrierLocked := true, ring := .claiming, lockOk := true, beaconTimer := none } ∧
          s.keepsBut [.pins, .memb, .ring, .flt] t ∧
          (s.roomFor 0 → t.node.flt = s.node.flt ∧
            t.node.ring = { s.node.ring with
              lossCount := 0, passRun := 0
              flushedCount := satAdd s.node.ring.flushedCount s.node.ring.insertQueue.length
              insertQueue := [{ kind := .claim, dest := 31, fatal := false
                                payload := [byte s.settings.config.standIndex] }] })
        else t.node.memb = { s.node.memb with carrierLocked := true } ∧
          s.keepsBut [.pins, .memb, .ring, .flt] t ∧ s.offers [] t)) ∧
  (∀ s : State, s.live →
     ∃ t, exec .carrierLoss s = .next t ∧ t.node.pins = { s.node.pins with carrier := false } ∧
       (if s.node.memb.carrierLocked = false then s.keepsBut [.pins, .ring, .flt] t ∧ s.offers [] t
        else t.node.memb.carrierLocked = false ∧
         t.node.memb.carrierLossCount = satInc s.node.memb.carrierLossCount ∧
         match s.node.memb.ring with
         | .claiming | .seeking =>
           t.node.memb.ring = .dark ∧ t.node.memb.lockOk = false ∧ t.node.memb.claimOk = false ∧
           t.node.memb.neighboursOk = false ∧ t.node.memb.ringOpen = false ∧
           t.node.memb.beaconTimer = none ∧ t.node.memb.seekTimer = none ∧
           t.node.ring.outstanding = [] ∧ t.node.ring.insertQueue = [] ∧ t.node.ring.lossCount = 0 ∧
           s.keepsBut [.pins, .memb, .ring, .flt] t
         | .joined =>
           let b : State := { s with node := { s.node with
             pins := { s.node.pins with carrier := false }
             memb := { s.node.memb with
               carrierLocked := false, carrierLossCount := satInc s.node.memb.carrierLossCount
               ring := .broken, lockOk := false, claimOk := false, neighboursOk := false
               ringOpen := false, breakRecord := .link }
             ring := { s.node.ring with outstanding := [], lossCount := 0 } } }
           t.node.memb.ring = .broken ∧ t.node.memb.lockOk = false ∧ t.node.memb.claimOk = false ∧
           t.node.memb.neighboursOk = false ∧ t.node.memb.ringOpen = false ∧
           t.node.memb.breakRecord = .link ∧ t.node.memb.beaconTimer = s.node.memb.beaconTimer ∧
           t.node.ring.outstanding = [] ∧
           b.breaksRing t
         | _ => t.node.memb = { s.node.memb with
             carrierLocked := false, carrierLossCount := satInc s.node.memb.carrierLossCount } ∧
           s.keepsBut [.pins, .memb, .ring, .flt] t ∧ s.offers [] t))
/-! ## Ring Membership (R24 to R42) -/

/-- A command that stands for a delivered frame has no effect where local delivery hands no such frame on:
in a ring state other than SEEKING and JOINED, in STARTING, for another destination, or with this node's
number as source (R11, log 1, 24). -/
def Obligations.UndeliveredCommandHasNoEffect : Prop :=
  ∀ (i : Instr) (h : Header) (s : State), s.live → deliveredHeader i = some h → ¬ s.hands h →
    ∃ t, exec i s = .next t ∧ s.keepsBut [.ring, .flt] t ∧ s.offers [] t

/-- A delivered BEACON (R29, R34, R35, R113, R117, R118): the record of each neighbour that its source is
configured as stores it, marks it heard in SEEKING, and becomes LIVE with the full timer; both heard in
SEEKING join the ring with NEIGHBOURS_OK; the sink's BEACON with strip present in THREADING or ROLLING takes
THREADING to ROLLING, with the roll gap as base and the accumulator and the cobble baseline cleared; a LOST
neighbour that is live again with both marks LIVE clears the hold cause NEIGHBOUR, joining the ring clears
RING, and the last cause to go in a strip state is hold end, which reassembles the demand with the stored
trims; a BEACON from any other station has no effect. -/
def Obligations.BeaconIsHeard : Prop :=
  ∀ (h : Header) (p : BeaconPayload) (s : State), s.live → s.hands h →
    let c := s.settings.config
    let m := s.node.memb
    let heard (r : NeighbourRec) : NeighbourRec :=
      { mark := .live, timer := some (4 * c.beaconInterval)
        heardInSeek := m.ring = .seeking || r.heardInSeek
        lostCount := r.lostCount
        recoveryCount := if r.mark = .lost then satInc r.recoveryCount else r.recoveryCount
        lastBeacon := some (beaconInfo p) }
    let up := if h.source = byte c.upstream then heard m.upstream else m.upstream
    let down := if h.source = byte c.downstream then heard m.downstream else m.downstream
    let rolls : Bool := h.source = byte c.downstream && s.node.seq.stand = .threading &&
      p.flags.getLsbD 0 && (p.standState = 4 || p.standState = 5)
    let joins : Bool := m.ring = .seeking && up.heardInSeek && down.heardInSeek
    let back : Bool := (h.source = byte c.upstream && m.upstream.mark = .lost ||
      h.source = byte c.downstream && m.downstream.mark = .lost) && up.mark = .live && down.mark = .live
    let holds : Holds := { s.node.seq.holds with
      neighbour := s.node.seq.holds.neighbour && !back, ring := s.node.seq.holds.ring && !joins }
    ∃ t, exec (.beaconReceived h p) s = .next t ∧ t.settings = s.settings ∧
      t.node.memb.upstream = up ∧ t.node.memb.downstream = down ∧
      (if m.ring = .seeking ∧ up.heardInSeek = true ∧ down.heardInSeek = true then
        t.node.memb.ring = .joined ∧ t.node.memb.neighboursOk = true ∧ t.node.memb.seekTimer = none ∧
          t.node.memb.breakRecord = .none
       else t.node.memb.ring = m.ring ∧ t.node.memb.neighboursOk = m.neighboursOk ∧
         t.node.memb.breakRecord = m.breakRecord) ∧
      t.node.seq = { s.node.seq with
        stand := if rolls then .rolling else s.node.seq.stand, holds := holds } ∧
      (rolls = true → ∀ id r, s.node.sched.active = some (id, r) →
        t.node.gap.base = some r.rollGap ∧ t.node.gap.monitor = 0 ∧ t.node.track.baseline = none ∧
        (t.node.gap.reference : Int) =
          clamped r ((r.rollGap : Int) + s.node.gap.ff + s.node.gap.trims holds.any)) ∧
      (rolls = false → s.node.holdEndsAt holds = true → s.node.reassembled c t.node) ∧
      (rolls = false → s.node.holdEndsAt holds = false → t.node.gap = s.node.gap) ∧
      (rolls = false → m.ring ≠ .seeking → back = true →
        t.node.memb = { m with upstream := up, downstream := down } ∧
        s.keepsBut [.memb, .seq, .gap, .ring, .flt] t ∧ s.recovers holds t) ∧
      (h.source ≠ byte c.upstream → h.source ≠ byte c.downstream →
        ¬ (m.ring = .seeking ∧ up.heardInSeek = true ∧ down.heardInSeek = true) →
        s.keepsBut [.ring, .flt] t ∧ s.offers [] t) ∧
      (m.ring ≠ .seeking → m.upstream.mark ≠ .lost → m.downstream.mark ≠ .lost → rolls = false →
        t.node.memb = { m with upstream := up, downstream := down } ∧
          s.keepsBut [.memb, .ring, .flt] t ∧ s.offers [] t)

/-- The beacon timer and the seek timer (R29, R32, R33, R37). The beacon timer's expiry offers a BEACON with
the node's present values and starts the timer again from the beacon interval. The seek timer's expiry in
SEEKING joins the ring with NEIGHBOURS_OK clear and the break record NONE, and each neighbour not heard in the
seek and never heard becomes LOST, its lost count growing with it (the model's choice, log 38); in a strip state
with the route HOLD such a loss sets hold cause NEIGHBOUR. Each acts on a timer that has run out; with the
timer stopped, or started again and not yet run out, nothing happens (log 2). -/
def Obligations.BeaconAndSeekTimersAct : Prop :=
  (∀ s : State, s.live →
     (s.node.memb.beaconTimer = some 0 →
       ∃ t, exec .beaconTimerExpiry s = .next t ∧
         t.node.memb = { s.node.memb with beaconTimer := some s.settings.config.beaconInterval } ∧
         s.keepsBut [.memb, .ring, .flt] t ∧
         (s.node.memb.ring.admits .beacon = true →
           s.offers [s.node.beacon s.settings.config] t) ∧
         (s.node.memb.ring.admits .beacon = false → s.offers [] t)) ∧
     (s.node.memb.beaconTimer ≠ some 0 →
       ∃ t, exec .beaconTimerExpiry s = .next t ∧ s.keepsBut [.ring, .flt] t ∧ s.offers [] t)) ∧
  (∀ s : State, s.live →
     let m := s.node.memb
     let ends (r : NeighbourRec) : NeighbourRec :=
       if r.heardInSeek = false ∧ r.mark = .unheard then
         { r with mark := .lost, timer := none, lostCount := satInc r.lostCount }
       else r
     (m.ring = .seeking → m.seekTimer = some 0 →
       ∃ t, exec .seekTimerExpiry s = .next t ∧ t.settings = s.settings ∧
         t.node.memb.ring = .joined ∧ t.node.memb.neighboursOk = false ∧
         t.node.memb.seekTimer = none ∧ t.node.memb.breakRecord = .none ∧
         t.node.memb.upstream = ends m.upstream ∧ t.node.memb.downstream = ends m.downstream ∧
         t.node.memb.beaconTimer = m.beaconTimer ∧
         (s.node.seq.stand.strip = false → s.node.seq.holds.ring = false →
           s.keepsBut [.memb, .ring, .flt] t) ∧
         (s.node.seq.stand.strip = true → s.settings.config.route = .hold →
           (ends m.upstream ≠ m.upstream ∨ ends m.downstream ≠ m.downstream) →
           t.node.seq.holds.neighbour = true ∧ t.node.seq.stand = s.node.seq.stand)) ∧
     (m.ring ≠ .seeking ∨ m.seekTimer ≠ some 0 →
       ∃ t, exec .seekTimerExpiry s = .next t ∧ s.keepsBut [.ring, .flt] t ∧ s.offers [] t))

/-- A liveness timer expires (R35, R116, R117): the neighbour becomes LOST and NEIGHBOUR_LOST is raised. It
is CORRECTABLE outside the strip states; in a strip state, with the route HOLD, it sets hold cause
NEIGHBOUR, the first cause counting the hold and freezing the trims; with the route TRIP it trips the
stand. The row acts on a timer that has run out: one that a BEACON taken first has started again does not
expire, and with the timer stopped nothing happens (log 2). -/
def Obligations.LivenessTimerLosesNeighbour : Prop :=
  ∀ (w : Neighbour) (s : State), s.live →
    let r := s.node.memb.record w
    let lost := s.node.memb.putRecord w
      { r with mark := .lost, timer := none, lostCount := satInc r.lostCount }
    (r.timer = some 0 →
      ∃ t, exec (.livenessTimerExpiry w) s = .next t ∧ t.settings = s.settings ∧
        (s.node.seq.stand.strip = false →
          t.node.memb = lost ∧ s.keepsBut [.memb, .ring, .flt] t ∧ s.reports .neighbourLost s.node t) ∧
        (s.node.seq.stand.strip = true → s.settings.config.route = .hold →
          t.node.memb = lost ∧ s.keepsBut [.memb, .seq, .gap, .ring, .flt] t ∧
          s.reports .neighbourLost s.node t ∧
          t.node.seq = { s.node.seq with
            holds := { s.node.seq.holds with neighbour := true }
            holdCount := if s.node.seq.holds.any then s.node.seq.holdCount
              else satInc s.node.seq.holdCount } ∧
          t.node.gap = (if s.node.seq.holds.any then s.node.gap else { s.node.gap with
            frozenTrim := s.node.gap.gapTrim, frozenProfile := s.node.gap.profileTrim })) ∧
        (s.node.seq.stand.strip = true → s.settings.config.route = .trip → s.node.untripped →
          { s.node with memb := lost }.tripsOn s.settings 2 11 t.node)) ∧
    (r.timer ≠ some 0 →
      ∃ t, exec (.livenessTimerExpiry w) s = .next t ∧ s.keepsBut [.ring, .flt] t ∧ s.offers [] t)

/-- The ring break grace timer expires (R39): with hold cause RING set, RING_BREAK_EXPIRED is raised, FATAL,
and trips the stand; without it the timer only stops. The row acts on a timer that has run out: one stopped by
a recovery, or started afresh by a new break, does nothing (log 2). -/
def Obligations.GraceTimerTripsHeldStand : Prop :=
  ∀ s : State, s.live →
    (s.node.memb.graceTimer = some 0 → s.node.seq.holds.ring = true → s.node.untripped →
      ∃ t, exec .ringBreakGraceExpiry s = .next t ∧ t.settings = s.settings ∧
        t.paramMem = s.paramMem ∧ t.pending = s.pending ∧
        s.tripsByFault .ringBreakExpired
          { s.node with memb := { s.node.memb with graceTimer := none } } t) ∧
    (s.node.memb.graceTimer = some 0 → s.node.seq.holds.ring = false →
      ∃ t, exec .ringBreakGraceExpiry s = .next t ∧
        t.node.memb = { s.node.memb with graceTimer := none } ∧
        s.keepsBut [.memb, .ring, .flt] t ∧ s.offers [] t) ∧
    (s.node.memb.graceTimer ≠ some 0 →
      ∃ t, exec .ringBreakGraceExpiry s = .next t ∧ s.keepsBut [.ring, .flt] t ∧ s.offers [] t)

/-! ## Requests (R43 to R61) -/

/-- The admission of a write (R49): the first step that refuses gives the REPLY, and a refused write changes
nothing (R50). The admission of a read (R48), whoever asks and whatever the stand state: NO_OBJECT, ACCESS of
a CLOSED object, RANGE of a fault code outside 1..32, a field above 64 or a part beyond the value; a read that
is admitted is DONE with the part of the value that was asked for, at most 44 bytes (R197), and changes
nothing; the value is the one that stands once the request itself has been forwarded (R10, R48). What each
value holds (R40, R41, R58, R78, R104, R119, R137, R157, R158, R176, R186, R193, R195), laid out as R197 and
log 22, 34, 42, 43, 47, 51 and 52 say. That byte 1 of the argument is not looked at in a read of FAULT_COUNTS
and of CONFIG_VIEW is the model's choice (log 49). -/
def Obligations.WriteIsRefusedInOrder : Prop :=
  (∀ (h : Header) (index : Byte) (value : List Byte) (s : State), s.live → s.hands h →
    let i := index.toNat
    let refused (st : Byte) : Prop :=
      ∃ t, exec (.objectWrite h index value) s = .next t ∧ s.keepsBut [.ring, .flt] t ∧
        s.offers [answerFrame h index st] t
    match settledClass s.settings i with
    | none => refused 1
    | some k =>
      if k = .closed ∨ k = .read then refused 2
      else if h.dest = 31 ∧ i ≠ 8 ∧ i ≠ 9 ∧ i ≠ 15 then refused 2
      else if k = .gated ∧ h.source.toNat ∉ s.settings.config.authority then refused 2
      else if k = .quietWrite ∧ s.node.seq.stand ≠ .quiet ∧ s.node.seq.stand ≠ .preset ∧
        s.node.seq.stand ≠ .ready then refused 3
      else if value.length ≠ valueSize i then refused 4
      else if i = 2 ∧ value ≠ [1] ∧ value ≠ [2] then refused 4
      else ∃ t, exec (.objectWrite h index value) s = .next t) ∧
  (∀ (bytes : List Byte) (f : Frame) (index a1 a2 : Byte) (s : State), s.live →
    judgeArrival bytes = .intact f → f.kind = .rdreq → f.payload = [index, a1, a2] →
    s.hands f.header → f.hop + 1 < 32 → s.node.ring.passBuffer.length < 6 → index ≠ 13 →
    let n : Node := { s.node with ring := { s.node.ring with
      passBuffer := s.node.ring.passBuffer ++ [{ f with hop := f.hop + 1 }] } }
    let value := objectValue s.settings n index.toNat
    let answered (status : Byte) (v : List Byte) : Prop :=
      ∃ t, exec (.frameArrival bytes) s = .next t ∧ s.keepsBut [.ring, .flt] t ∧
        (s.roomFor 1 → t.node.flt = s.node.flt ∧
          t.node.ring = { s.node.ring with
            passBuffer := s.node.ring.passBuffer ++ [{ f with hop := f.hop + 1 }]
            insertQueue := s.node.ring.insertQueue ++
              [{ kind := .reply, dest := f.source, fatal := false
                 payload := f.tag :: index :: status :: byte v.length :: v }] })
    if settledClass s.settings index.toNat = none then answered 1 []
    else if settledClass s.settings index.toNat = some .closed then answered 2 []
    else if index = 17 then
      (if a2 = 0 ∨ 32 < a2.toNat then answered 4 []
       else answered 0 (a2 :: natBytes (s.node.flt.counters.getD (a2.toNat - 1) 0)))
    else if index = 22 then
      (match configField s.settings a2.toNat with
       | some v => answered 0 v
       | none => answered 4 [])
    else if a2 ≠ 0 ∧ value.length ≤ 44 * a2.toNat then answered 4 []
    else answered 0 ((value.drop (44 * a2.toNat)).take 44)) ∧
  (∀ (c : Settings) (n : Node),
    let value := objectValue c n
    let k := c.config
    let flag (b : Bool) : Byte := if b then 1 else 0
    let nat (x : Nat) : List Byte := natBytes x
    let m := n.meas
    let g := n.gap
    let tr := n.track
    let origin (o : Option Origin) : List Byte :=
      match o with
      | none => [0, 0, 0, 0, 0, 0, 0]
      | some o => [1, byte o.station, byte o.standIndex, o.causeKind, o.detail] ++ halfBytes o.number
    let line (i : Fin 4) : List Byte :=
      [senseCode (getFour k.lines i).sense, flag (getFour k.lines i).enabled,
       flag (getFour n.pins.lines i), flag (getFour n.trip.lines i).flag,
       flag (levelCauseActive k n.pins i)]
    let neighbour (station : Nat) (r : NeighbourRec) : List Byte :=
      [byte station, r.mark.code, flag r.heardInSeek] ++ nat r.lostCount ++ nat r.recoveryCount ++
      (match r.lastBeacon with
       | none => [0, 0, 0, 0, 0, 0, 0, 0, 0]
       | some b => [1, byte b.standIndex, b.standState,
           packFlags [b.stripPresent, b.tripped, b.hold]] ++ nat b.scheduleId ++
           halfBytes b.lastClosed ++ [byte b.originStation])
    let slot (x : Slot) : List Byte :=
      match x with
      | .empty => [x.code, 0, 0, 0, 0, 0, 0, 0, 0]
      | .loading l =>
        x.code :: nat l.id ++ [1, l.source, byte l.declared, byte l.sections.length, 0, 0]
      | .loaded id r | .pending id r | .active id r =>
        x.code :: nat id ++ [0, 0, 0, 0, 1, byte r.profile.length]
    value 1 = [n.seq.stand.code, packFlags [n.seq.holds.ring, n.seq.holds.neighbour,
        n.seq.holds.reverse, n.seq.holds.overload]] ++ nat n.seq.holdCount ++
      nat n.seq.tailIgnored ++ [flag (!n.pins.loopClosed),
        packFlags [n.awaitingLoop, n.awaitingRetract, n.originsLost]] ∧
    value 2 = [flag (n.dir.table.any isPreset)] ∧
    (n.sched.active = none → value 3 = List.replicate 23 0) ∧
    (∀ id r, n.sched.active = some (id, r) → ∃ i,
      (listFour n.sched.slots)[i]? = some (.active id r) ∧
      value 3 = nat id ++ [byte (i + 1), 1] ++ nat r.entryTarget ++ nat r.exitTarget ++
        nat r.threadGap ++ nat r.rollGap ++ nat r.gapMin ++ nat r.gapMax ++ nat r.forceLimit ++
        nat r.offGauge ++ [byte r.pclass, packFlags [r.ffAllowed, r.monitorAllowed],
          byte r.profile.length]) ∧
    value 4 = [byte (match n.sched.pendingSlot with | some (id, _) => id | none => 0)] ∧
    value 5 = (listFour n.sched.slots).flatMap slot ++
      (match n.sched.profile with
       | none => [0, 0, 0, 0, 0, 0]
       | some p => 1 :: halfBytes p.weld ++ nat p.id ++ [byte p.nextEntry]) ++
      nat n.sched.loadsCompleted ++ nat n.sched.loadsFailed ++ nat n.sched.loadTimeouts ++
      nat n.sched.coilChanges ++ nat n.sched.flyingChanges ∧
    value 6 = [] ∧ value 15 = [] ∧ value 21 = [] ∧
    value 7 = intBytes g.gapTrim ∧ value 8 = [flag g.ffEnable] ∧ value 9 = [flag g.monitorEnable] ∧
    (∃ code : Byte, value 10 =
      (match g.base with | none => [0, 0, 0] | some b => 1 :: nat b) ++
      intBytes g.ff ++ intBytes g.monitor ++ intBytes g.gapTrim ++ intBytes g.profileTrim ++
      intBytes g.frozenTrim ++ intBytes g.frozenProfile ++
      wideIntBytes (if n.seq.stand.strip then g.unclamped else ((g.base.getD 0 : Nat) : Int)) ++
      [flag g.clampMark] ++ nat g.reference ++ nat ((m.posOS.value + m.posDS.value) / 2) ++
      [g.supervision.code] ++ nat g.target ++ [flag g.servoEn, flag n.pins.servoFlt] ++
      nat g.moves.started ++ nat g.moves.superseded ++ nat g.moves.completed ++
      nat g.moves.timedOut ++ nat g.moves.abandoned ++ nat g.queue.length ++
      (match g.queue.head? with
       | none => [0, 0, 0, 0]
       | some (.fill t) => [1, code, byte t.pclass, byte t.band]
       | some (.write r _) => [1, code, byte r.tag.pclass, byte r.tag.band]) ++
      (match g.waiting with
       | none => [0, 0, 0, 0]
       | some w => [1, byte w.tag.pclass, byte w.tag.band, flag w.wanted])) ∧
    value 11 = nat m.forceOS.value ++ nat m.forceDS.value ++
      nat (m.forceOS.value + m.forceDS.value) ++
      [flag m.forceOS.valid, flag m.forceDS.valid, flag m.loadOn, byte m.band, flag m.overload] ++
      nat m.posOS.value ++ nat m.posDS.value ++ nat ((m.posOS.value + m.posDS.value) / 2) ++
      wideIntBytes ((m.posDS.value : Int) - m.posOS.value) ++
      [flag m.posOS.valid, flag m.posDS.valid, flag m.tiltMark] ++ posBytes m.entryCount ++
      posBytes m.exitCount ++
      (match m.reversal with | none => [0, 0, 0, 0, 0] | some p => 1 :: posBytes p) ++
      [flag n.pins.measuring, flag m.hold] ++ nat m.fifo.length ++ nat m.idleDiscards ++
      nat m.withdrawnDiscards ++ nat m.flushedSamples ++ nat m.entryErrors ++ nat m.exitErrors ∧
    (∃ compared : List Byte,
      (∀ a d, tr.comparison = some (a, d) → -32768 ≤ a → a ≤ 32767 → -32768 ≤ d → d ≤ 32767 →
        compared = 1 :: (intBytes a ++ intBytes d)) ∧
      (tr.comparison = none → compared = [0, 0, 0, 0, 0]) ∧
      value 12 = [flag tr.running] ++ posBytes tr.origin ++
        (match tr.openSeg with
         | none => List.replicate 12 0
         | some o => 1 :: halfBytes o.number ++ posBytes o.spanStart ++ nat o.good ++
             nat o.suspect ++ [packFlags [o.head, o.weld]]) ++
        halfBytes tr.nextNumber ++ halfBytes tr.lastClosed ++ nat tr.exitTrack.length ++
        (match tr.exitTrack.head?, tr.exitTrack.getLast? with
         | some a, some b => 1 :: halfBytes a.number ++ halfBytes b.number
         | _, _ => [0, 0, 0, 0, 0]) ++
        nat tr.weldList.length ++ halfBytes tr.entryCoil ++ halfBytes tr.exitCoil ++
        nat tr.arrival.length ++
        (match tr.arrival.head? with
         | none => [0, 0, 0, 0, 0, 0, 0, 0]
         | some r => 1 :: halfBytes r.number ++ posBytes r.due ++ [flag tr.headWaiting]) ++
        (match tr.expected with | none => [0, 0, 0] | some e => 1 :: halfBytes e) ++
        (match tr.baseline with
         | none => [0, 0, 0, 0, 0, 0, 0]
         | some b => 1 :: halfBytes b.1 ++ posBytes b.2) ++
        compared ++
        [tr.counts.closed, tr.counts.published, tr.counts.exitDiscarded, tr.counts.publishRefused,
          tr.counts.stale, tr.counts.suspect, tr.counts.received, tr.counts.applied,
          tr.counts.arrivalDiscarded, tr.counts.trackGaps, tr.counts.duplicates, tr.counts.late,
          tr.counts.unexpected, tr.counts.foreign, tr.counts.marksReceived,
          tr.counts.droppedWelds].flatMap nat) ∧
    value 14 = origin n.trip.active ++ origin n.trip.pending ++ nat n.trip.dropped ++
      [flag (n.trip.recorded c.station)] ++ nat n.trip.tripEntries ++ nat n.trip.localRepeats ++
      nat n.trip.ignoredTrips ++ nat n.trip.clearsTaken ++ nat n.trip.clearsRefused ∧
    value 16 = line 0 ++ line 1 ++ line 2 ++ line 3 ++
      [flag (n.switchOpen c), flag (!n.pins.loopClosed)] ++ nat n.trip.loopOpens ∧
    value 18 = (match n.flt.first with
       | none => [0, 0, 0, 0, 0, 0]
       | some e => [1, byte e.code.number, e.cls.code, e.stand.code] ++ halfBytes e.number) ++
      [reportLevelCode k.reportLevel, routeCode k.route, byte k.reportBudget] ++
      nat n.flt.budgetCount ++ [flag n.flt.budgetExceeded] ++ nat n.flt.offered ++
      nat n.flt.suppressed ∧
    value 19 = [n.memb.ring.code, flag n.memb.carrierLocked,
        packFlags [n.memb.lockOk, n.memb.claimOk, n.memb.neighboursOk], flag n.memb.ringOpen,
        n.memb.breakRecord.code, flag n.memb.graceTimer.isSome] ++ nat n.ring.lossCount ++
      nat n.ring.outstanding.length ++ nat n.ring.insertQueue.length ++
      nat n.ring.passBuffer.length ++ nat n.ring.unmatchedCount ++ nat n.ring.flushedCount ++
      nat n.memb.claimResends ++ nat n.memb.carrierLossCount ∧
    value 20 = neighbour k.upstream n.memb.upstream ++ neighbour k.downstream n.memb.downstream ∧
    value 23 = n.startup.cause.code :: nat n.startup.softResets ∧
    value 24 = [flag g.ffEnable, flag g.monitorEnable, flag n.ffEffective,
        flag n.monitorEffective] ++
      (match g.lastApplied with
       | none => [0, 0, 0, 0, 0]
       | some a => 1 :: halfBytes a.1 ++ nat a.2) ++
      (match g.lastCoefs with
       | none => [0, 0, 0, 0, 0, 0, 0]
       | some r => [1, byte r.tag.pclass, byte r.tag.band] ++ intBytes r.ff ++ nat r.mon) ++
      nat g.counts.hits ++ nat g.counts.misses ++ nat g.counts.fillsInstalled ++
      nat g.counts.fillsFailed ++ nat g.counts.holdSkips ++ nat g.counts.missSkips ++
      nat g.counts.prefetchSkipped) ∧
  (∀ c : Settings,
    let field := configField c
    let k := c.config
    let lineOf (l : LineConfig) : List Byte :=
      [senseCode l.sense ||| (if l.enabled then 0x80 else 0)]
    field 0 = some [byte c.station] ∧ field 1 = some [if c.writeProtect then 1 else 0] ∧
    [2, 3, 4].map field =
      [k.standIndex, k.upstream, k.downstream].map (fun x => some [byte x]) ∧
    [5, 6, 7, 8, 9].map field =
      [k.segLength, k.biteDistance, k.gaugeOffset, k.publishLead, k.ffLead].map
        (fun x => some (natBytes x)) ∧
    field 10 = some [byte k.markInterval] ∧
    [11, 12, 13].map field =
      [k.cobbleTolerance, k.loadOn, k.loadOff].map (fun x => some (natBytes x)) ∧
    (∀ i, i < 7 → field (14 + i) = some (natBytes (k.bandEdges.getD i 0))) ∧
    [21, 22].map field = [k.tiltLimit, k.stepThreshold].map (fun x => some (natBytes x)) ∧
    field 23 = some [byte k.positionTolerance] ∧
    [24, 25, 26, 27].map field =
      [k.moveTimeout, k.retractTimeout, k.standbyGap, k.retractGap].map
        (fun x => some (natBytes x)) ∧
    [28, 29].map field = [k.beaconInterval, k.returnTimeout].map (fun x => some [byte x]) ∧
    field 30 = some (natBytes k.ringBreakGrace) ∧
    field 31 = some [match k.route with | .hold => 1 | .trip => 2] ∧
    field 32 =
      some [match k.reportLevel with | .none => 0 | .fatal => 1 | .severe => 2 | .all => 3] ∧
    field 33 = some [byte k.reportBudget] ∧
    [34, 35, 36, 37].map field =
      [k.lines.x0, k.lines.x1, k.lines.x2, k.lines.x3].map (fun l => some (lineOf l)) ∧
    field 38 = some (byte k.authority.length ::
      [k.authority.getD 0 0, k.authority.getD 1 0, k.authority.getD 2 0, k.authority.getD 3 0].map
        byte) ∧
    (∀ i, i < 25 → field (39 + i) = some
      [match k.closures.getD i .openTo with | .openTo => 0 | .quiet => 1 | .closed => 2,
       match settledClass c i with
       | none | some .closed => 0 | some .read => 1 | some .readWrite => 2
       | some .quietWrite => 3 | some .gated => 4]) ∧
    field 64 = some (halfBytes k.imageCheck) ∧ (∀ i, 64 < i → field i = none))

/-- A write to an object of a row of its own is that row's command (R49, R50, R197). -/
def Obligations.ObjectWriteIsItsRow : Prop :=
  ∀ (h : Header) (v : Byte) (w u : Half) (b : Byte) (s : State),
    exec (.objectWrite h 2 [1]) s = exec (.standCommandPreset h) s ∧
    exec (.objectWrite h 2 [2]) s = exec (.standCommandQuiet h) s ∧
    exec (.objectWrite h 4 [v]) s = exec (.nextSchedule h v) s ∧
    exec (.objectWrite h 6 [v]) s = exec (.slotFree h v) s ∧
    exec (.objectWrite h 7 (halfBytes w)) s = exec (.gapTrim h w) s ∧
    exec (.objectWrite h 8 [v]) s = exec (.ffEnable h v) s ∧
    exec (.objectWrite h 9 [v]) s = exec (.monitorEnable h v) s ∧
    exec (.objectWrite h 13 ([v, b] ++ halfBytes w ++ halfBytes u)) s =
      exec (.coefEntryWrite h v b w u) s ∧
    exec (.objectWrite h 15 [v]) s = exec (.tripClearStation h v) s ∧
    exec (.objectWrite h 15 [31]) s = exec (.tripClearAll h) s ∧
    exec (.objectWrite h 17 ([v] ++ halfBytes w)) s = exec (.faultCountsClear h v w) s ∧
    exec (.objectWrite h 18 [v]) s = exec (.faultSummaryClear h v) s ∧
    exec (.objectWrite h 21 [v]) s = exec (.nodeReset h v) s

/-- A PRESET command (R51, R106 to R108): outside QUIET, or without an ACTIVE slot, JOINED and both marks
LIVE, it is refused STATE; with the request table full, BUSY; otherwise it takes an entry at the tail, the
stand becomes PRESET, the base and the reference become the thread gap, and a move starts with the full
timeout; no REPLY is offered yet. -/
def Obligations.PresetCommandEntersPreset : Prop :=
  ∀ (h : Header) (s : State), s.live → s.admitsWrite h 2 →
    let ok := s.node.seq.stand = .quiet ∧ s.node.sched.active.isSome = true ∧
      s.node.memb.ring = .joined ∧ s.node.memb.upstream.mark = .live ∧
      s.node.memb.downstream.mark = .live
    ∃ t, exec (.standCommandPreset h) s = .next t ∧
      (¬ ok → s.keepsBut [.ring, .flt] t ∧ s.offers [answerFrame h 2 3] t) ∧
      (ok → 4 ≤ s.node.dir.table.length →
        s.keepsBut [.ring, .flt] t ∧ s.offers [answerFrame h 2 5] t) ∧
      (ok → s.node.dir.table.length < 4 → ∀ id r, s.node.sched.active = some (id, r) →
        t.node.seq = { s.node.seq with stand := .preset } ∧
        t.node.dir = { s.node.dir with table := s.node.dir.table ++
          [{ requester := h.source, tag := h.tag, index := 2, kind := .preset, coef := none }] } ∧
        t.node.gap = { s.node.gap with
          base := some r.threadGap, reference := r.threadGap, supervision := .moving
          target := r.threadGap, timer := some s.settings.config.moveTimeout
          moves := { s.node.gap.moves with started := satInc s.node.gap.moves.started } } ∧
        s.keepsBut [.seq, .dir, .gap, .ring, .flt] t ∧ s.offers [] t)

/-- A QUIET command (R53, R107, R110): DONE without effect in QUIET; in PRESET and READY the stand enters
QUIET with its effects on every block, a PRESET entry being aborted first, and the command is DONE; in
every other state it is refused STATE. -/
def Obligations.QuietCommandEntersQuiet : Prop :=
  ∀ (h : Header) (s : State), s.live → s.admitsWrite h 2 →
    let n := s.node
    let gap : GapControl := { n.gap with
      base := some s.settings.config.standbyGap, ff := 0, monitor := 0, profileTrim := 0
      clampMark := false, waiting := none }
    ∃ t, exec (.standCommandQuiet h) s = .next t ∧
      (n.seq.stand = .quiet → s.keepsBut [.ring, .flt] t ∧ s.offers [answerFrame h 2 0] t) ∧
      (n.seq.stand = .preset ∨ n.seq.stand = .ready →
        t.node.seq = { n.seq with stand := .quiet, holds := Holds.empty } ∧
        t.node.memb = { n.memb with graceTimer := none } ∧
        t.node.dir = { changed := ChangedFlags.clear
                       table := if n.seq.stand = .preset then n.dir.table.eraseP isPreset
                         else n.dir.table } ∧
        t.node.meas = { n.meas with
          fifo := [], hold := false, overload := false, reversal := none
          flushedSamples := satAdd n.meas.flushedSamples n.meas.fifo.length } ∧
        t.node.track = { n.track with
          arrival := [], headWaiting := false, expected := none, weldList := [], baseline := none
          counts := { n.track.counts with
            arrivalDiscarded := satAdd n.track.counts.arrivalDiscarded n.track.arrival.length } } ∧
        t.node.sched = { n.sched with profile := none } ∧
        t.node.gap = gap.refer s.settings.config s.settings.config.standbyGap ∧
        s.keepsBut [.seq, .memb, .dir, .meas, .track, .sched, .gap, .ring, .flt] t ∧
        s.offers ((if n.seq.stand = .preset then
            (n.dir.table.find? isPreset).toList.map
              (fun e => replyFrame e.requester e.tag e.index .aborted [])
          else []) ++ [answerFrame h 2 0]) t) ∧
      (n.seq.stand ≠ .quiet → n.seq.stand ≠ .preset → n.seq.stand ≠ .ready →
        s.keepsBut [.ring, .flt] t ∧ s.offers [answerFrame h 2 3] t)

/-- NEXT_SCHEDULE (R55, R129, R130, R152): in QUIET the LOADED slot of the id becomes ACTIVE and the ACTIVE
one LOADED; in ROLLING it becomes PENDING, the PENDING one LOADED, and its class is prefetched; 0 in
ROLLING disarms; any other value is refused RANGE, and any other stand state STATE. A write taken is DONE
and echoed once. -/
def Obligations.NextScheduleActivatesOrArms : Prop :=
  ∀ (h : Header) (id : Byte) (s : State), s.live → s.admitsWrite h 4 →
    let n := s.node
    let loaded : Prop := ∃ k r, getFour n.sched.slots k = .loaded id.toNat r
    let done : List OwnFrame := answerFrame h 4 0 :: echoOffered n.dir.changed.nextSchedule 4 [id]
    let dir : Directory := { n.dir with changed := { n.dir.changed with nextSchedule := true } }
    ∃ t, exec (.nextSchedule h id) s = .next t ∧
      (n.seq.stand = .quiet → loaded →
        t.node.sched = { n.sched with slots := mapFour (Slot.activate id.toNat) n.sched.slots } ∧
        t.node.dir = dir ∧ s.keepsBut [.sched, .dir, .ring, .flt] t ∧ s.offers done t) ∧
      (n.seq.stand = .rolling → loaded →
        t.node.sched = { n.sched with slots := mapFour (Slot.arm id.toNat) n.sched.slots } ∧
        (∀ k r, t.node.sched.pendingSlot = some (k, r) →
          t.node.gap = n.gap.prefetch r.pclass n.meas.band) ∧
        t.node.dir = dir ∧ s.keepsBut [.sched, .dir, .gap, .ring, .flt] t ∧ s.offers done t) ∧
      (n.seq.stand = .rolling → ¬ loaded → id = 0 →
        t.node.sched = { n.sched with slots := mapFour Slot.disarm n.sched.slots } ∧
        t.node.dir = dir ∧ s.keepsBut [.sched, .dir, .ring, .flt] t ∧ s.offers done t) ∧
      ((n.seq.stand = .quiet ∨ n.seq.stand = .rolling ∧ id ≠ 0) → ¬ loaded →
        s.keepsBut [.ring, .flt] t ∧ s.offers [answerFrame h 4 4] t) ∧
      (n.seq.stand ≠ .quiet → n.seq.stand ≠ .rolling →
        s.keepsBut [.ring, .flt] t ∧ s.offers [answerFrame h 4 3] t)

/-- SLOT_FREE (R131), in every stand state in which requests are delivered: an id held LOADED frees its slot
and is DONE; an id held ACTIVE, PENDING or LOADING is refused STATE, one that no slot holds RANGE, and
nothing changes. -/
def Obligations.SlotFreeEmptiesLoadedSlot : Prop :=
  ∀ (h : Header) (id : Byte) (s : State), s.live → s.admitsWrite h 6 → s.slotLaw →
    ∃ t, exec (.slotFree h id) s = .next t ∧
      ((∀ k, (getFour s.node.sched.slots k).id ≠ some id.toNat) →
        s.keepsBut [.ring, .flt] t ∧ s.offers [answerFrame h 6 4] t) ∧
      (∀ k, (getFour s.node.sched.slots k).id = some id.toNat →
        ((∃ r, getFour s.node.sched.slots k = .loaded id.toNat r) →
          t.node.sched = { s.node.sched with slots := setFour s.node.sched.slots k .empty } ∧
          s.keepsBut [.sched, .ring, .flt] t ∧ s.offers [answerFrame h 6 0] t) ∧
        ((∀ r, getFour s.node.sched.slots k ≠ .loaded id.toNat r) →
          s.keepsBut [.ring, .flt] t ∧ s.offers [answerFrame h 6 3] t))

/-- GAP_TRIM (R55, R139, R143, R145), as the row and as a WRREQ to object 7: a trim within ±1,000 is stored,
DONE and echoed once; in a strip state with no hold the demand is reassembled, the reference is the demand
clamped to the ACTIVE gap limits and goes to move supervision, and a clamp that becomes needed raises
DEMAND_CLAMPED before the DONE and the ECHO are offered; elsewhere and during a hold nothing else changes; a
trim outside the range is refused RANGE. -/
def Obligations.GapTrimStoresTrim : Prop :=
  ∀ (i : Instr) (h : Header) (trim : Half) (s : State), s.live → s.admitsWrite h 7 →
    i = .gapTrim h trim ∨ i = .objectWrite h 7 (halfBytes trim) →
    let n := s.node
    let inRange : Prop := -1000 ≤ trim.toInt ∧ trim.toInt ≤ 1000
    let acts : Bool := n.seq.stand.strip && !n.seq.holds.any
    let answers : List OwnFrame :=
      answerFrame h 7 0 :: echoOffered n.dir.changed.gapTrim 7 (halfBytes trim)
    ∃ t, exec i s = .next t ∧
      (inRange → t.node.gap.gapTrim = trim.toInt ∧
        t.node.dir = { n.dir with changed := { n.dir.changed with gapTrim := true } } ∧
        s.keepsBut [.gap, .dir, .ring, .flt] t) ∧
      (inRange → acts = false → t.node.gap = { n.gap with gapTrim := trim.toInt } ∧
        s.offers answers t) ∧
      (inRange → acts = true → ∀ b, n.gap.base = some b →
        ∀ id r, n.sched.active = some (id, r) →
        let d : Int := if n.seq.stand = .threading then b + trim.toInt + n.gap.profileTrim
          else b + n.gap.ff + n.gap.monitor + trim.toInt + n.gap.profileTrim
        let clamps : Bool := decide (d < r.gapMin) || decide ((r.gapMax : Int) < d)
        t.node.gap = ({ n.gap with
          gapTrim := trim.toInt, unclamped := d, clampMark := clamps } : GapControl).placed
            s.settings.config (clamped r d).toNat ∧
        (clamps = false ∨ n.gap.clampMark = true → s.offers answers t) ∧
        (clamps = true → n.gap.clampMark = false → s.roomFor (1 + answers.length) →
          t.node.flt = n.flt.after s.settings (eventOf .demandClamped n) ∧
          t.node.ring = { n.ring with
            insertQueue := queueAfter s.settings n.memb.ring (eventOf .demandClamped n) n.flt
              n.ring.insertQueue ++ answers })) ∧
      (¬ inRange → s.keepsBut [.ring, .flt] t ∧ s.offers [answerFrame h 7 4] t)

/-- FF_ENABLE and MONITOR_ENABLE (R55, R144): 0 or 1 becomes the enable, is DONE and echoed once, and moves
no gap; any other value is refused RANGE. -/
def Obligations.EnablesAreStored : Prop :=
  ∀ (h : Header) (v : Byte) (s : State), s.live →
    (s.admitsWrite h 8 → ∃ t, exec (.ffEnable h v) s = .next t ∧
      (v = 0 ∨ v = 1 → t.node.gap = { s.node.gap with ffEnable := v = 1 } ∧
        t.node.dir = { s.node.dir with changed := { s.node.dir.changed with ffEnable := true } } ∧
        s.keepsBut [.gap, .dir, .ring, .flt] t ∧
        s.offers (answerFrame h 8 0 :: echoOffered s.node.dir.changed.ffEnable 8 [v]) t) ∧
      (v ≠ 0 → v ≠ 1 → s.keepsBut [.ring, .flt] t ∧ s.offers [answerFrame h 8 4] t)) ∧
    (s.admitsWrite h 9 → ∃ t, exec (.monitorEnable h v) s = .next t ∧
      (v = 0 ∨ v = 1 → t.node.gap = { s.node.gap with monitorEnable := v = 1 } ∧
        t.node.dir = { s.node.dir with changed := { s.node.dir.changed with monitorEnable := true } } ∧
        s.keepsBut [.gap, .dir, .ring, .flt] t ∧
        s.offers (answerFrame h 9 0 :: echoOffered s.node.dir.changed.monitorEnable 9 [v]) t) ∧
      (v ≠ 0 → v ≠ 1 → s.keepsBut [.ring, .flt] t ∧ s.offers [answerFrame h 9 4] t))

/-- A COEF_ENTRY write (R51, R153, R154): out of range RANGE; with the write-protect strap set ACCESS; with
the parameter queue or the request table full BUSY; otherwise it takes a table entry and joins the tail of
the queue, entering service with 20 ms at an idle port. -/
def Obligations.CoefficientWriteIsQueued : Prop :=
  ∀ (h : Header) (pclass band : Byte) (ff mon : Half) (s : State), s.live → s.admitsWrite h 13 →
    let n := s.node
    let inRange : Prop := pclass.toNat ≤ 63 ∧ band.toNat ≤ 7 ∧ -2000 ≤ ff.toInt ∧ ff.toInt ≤ 2000 ∧
      mon.toNat ≤ 1000
    let tag : CoefTag := { pclass := pclass.toNat, band := band.toNat }
    ∃ t, exec (.coefEntryWrite h pclass band ff mon) s = .next t ∧
      (if ¬ inRange then s.keepsBut [.ring, .flt] t ∧ s.offers [answerFrame h 13 4] t
       else if s.settings.writeProtect then s.keepsBut [.ring, .flt] t ∧ s.offers [answerFrame h 13 2] t
       else if 4 ≤ n.gap.queue.length ∨ 4 ≤ n.dir.table.length then
         s.keepsBut [.ring, .flt] t ∧ s.offers [answerFrame h 13 5] t
       else
         t.node.dir = { n.dir with table := n.dir.table ++
           [{ requester := h.source, tag := h.tag, index := 13, kind := .coefWrite, coef := some tag }] } ∧
         t.node.gap = { n.gap with
           queue := n.gap.queue ++ [.write { tag := tag, ff := ff.toInt, mon := mon.toNat } true]
           opTimer := if n.gap.queue = [] then some 20 else n.gap.opTimer } ∧
         s.keepsBut [.dir, .gap, .ring, .flt] t ∧ s.offers [] t)

/-- A COEF_ENTRY read (R48, R51, R156): out of range RANGE; a cached record is returned at once, with the
MRU marks and the counts as they stand; an absent one takes a table entry and waits on the fill of its tag,
which joins the queue where none is there; with the table or the queue full, BUSY. -/
def Obligations.CoefficientReadHitsOrWaits : Prop :=
  ∀ (h : Header) (pclass band : Byte) (s : State), s.live → s.hands h →
    (∃ k, settledClass s.settings 13 = some k ∧ k ≠ .closed) →
    let n := s.node
    let tag : CoefTag := { pclass := pclass.toNat, band := band.toNat }
    let dir : Directory := { n.dir with table := n.dir.table ++
      [{ requester := h.source, tag := h.tag, index := 13, kind := .coefRead, coef := some tag }] }
    ∃ t, exec (.coefEntryRead h pclass band) s = .next t ∧
      (if 63 < pclass.toNat ∨ 7 < band.toNat then
         s.keepsBut [.ring, .flt] t ∧ s.offers [answerFrame h 13 4] t
       else match n.gap.cached tag with
        | some r => s.keepsBut [.ring, .flt] t ∧
          s.offers [{ kind := .reply, dest := h.source, fatal := false
                      payload := [h.tag, 13, 0, 6, byte r.tag.pclass, byte r.tag.band] ++
                        intBytes r.ff ++ natBytes r.mon }] t
        | none =>
          if 4 ≤ n.dir.table.length ∨ ParamOp.fill tag ∉ n.gap.queue ∧ 4 ≤ n.gap.queue.length then
            s.keepsBut [.ring, .flt] t ∧ s.offers [answerFrame h 13 5] t
          else if ParamOp.fill tag ∈ n.gap.queue then
            t.node.dir = dir ∧ s.keepsBut [.dir, .ring, .flt] t ∧ s.offers [] t
          else
            t.node.dir = dir ∧
            t.node.gap = { n.gap with
              queue := n.gap.queue ++ [.fill tag]
              opTimer := if n.gap.queue = [] then some 20 else n.gap.opTimer } ∧
            s.keepsBut [.dir, .gap, .ring, .flt] t ∧ s.offers [] t)

/-! ## Trip clears, fault clears and the soft reset (R168 to R171, R185, R186, R194) -/

/-- TRIP_CLEAR (R168 to R172), naming a station or, as 31, ALL. Refused STATE in LOCKOUT, RANGE for 0, a
value above 31 or a station that is not recorded, and STATE where a local level cause is active and ALL or
this node is named; a refused clear only counts. A clear taken, with no active level cause or with another
station named and the own origin held, retires its origins (the unknown one where the loop is closed), moves
the pending one up, sets the line flags from the levels, counts an active enabled level cause as a local
repeat, resets the report budget, and leaves TRIPPED for QUIET where R172 admits it. -/
def Obligations.TripClearRetiresOrigins : Prop :=
  (∀ (h : Header) (s : State), exec (.tripClearAll h) s = exec (.tripClearStation h 31) s) ∧
  ∀ (h : Header) (v : Byte) (s : State), s.live → s.startupHolds → s.admitsWrite h 15 →
    let n := s.node
    let c := s.settings.config
    let level : Bool := anyLevelCause c n.pins
    let own : Bool := v = 31 || v.toNat = s.settings.station
    let held : Bool := n.trip.recorded s.settings.station
    let causes := (List.finRange 4).countP (levelCauseActive c n.pins)
    let gone (o : Origin) : Bool :=
      (if v = 31 then o.station ≠ 0 else o.station = v.toNat) || (n.pins.loopClosed && o.station = 0)
    let left := (n.trip.active.toList ++ n.trip.pending.toList).filter (fun o => !gone o)
    let dropped := if v = 31 then 0 else n.trip.dropped
    let exits : Bool := n.seq.stand = .tripped && left.isEmpty && dropped = 0 && n.pins.loopClosed &&
      n.gap.supervision = .retracted
    ∃ t, exec (.tripClearStation h v) s = .next t ∧
      (∀ st, (n.seq.stand = .lockout ∧ st = 3) ∨
          (n.seq.stand ≠ .lockout ∧ (v = 0 ∨ 31 < v.toNat) ∧ st = 4) ∨
          (n.seq.stand ≠ .lockout ∧ v ≠ 0 ∧ v.toNat < 31 ∧ n.trip.recorded v.toNat = false ∧ st = 4) ∨
          (n.seq.stand ≠ .lockout ∧ level = true ∧ (v = 31 ∨ v ≠ 0 ∧ v.toNat < 31 ∧
            n.trip.recorded v.toNat = true ∧ v.toNat = s.settings.station) ∧ st = 3) →
        t.node.trip = { n.trip with clearsRefused := satInc n.trip.clearsRefused } ∧
        s.keepsBut [.trip, .ring, .flt] t ∧ s.offers [answerFrame h 15 st] t) ∧
      (n.seq.stand ≠ .lockout → v = 31 ∨ v ≠ 0 ∧ v.toNat < 31 ∧ n.trip.recorded v.toNat = true →
        level = false ∨ own = false ∧ held = true →
        (exits = true → n.pins.servoFlt = false) →
        t.node.trip = { n.trip with
          lines := t.node.trip.lines, active := left[0]?, pending := left[1]?, dropped := dropped
          localRepeats := if causes = 0 then n.trip.localRepeats
            else satAdd n.trip.localRepeats causes
          clearsTaken := satInc n.trip.clearsTaken } ∧
        (∀ k, getFour t.node.trip.lines k = { getFour n.trip.lines k with
          flag := levelMeets (getFour c.lines k) (getFour n.pins.lines k) }) ∧
        (exits = false → s.keepsBut [.trip, .ring, .flt] t) ∧
        (exits = true →
          t.node.seq = { n.seq with stand := .quiet, holds := Holds.empty } ∧
          t.node.gap.base = some c.standbyGap ∧ t.node.gap.reference = c.standbyGap ∧
          t.node.gap.servoEn = true ∧
          s.keepsBut [.seq, .memb, .dir, .meas, .track, .sched, .gap, .trip, .ring, .flt] t) ∧
        (s.roomFor 1 →
          t.node.flt = { n.flt with budgetCount := 0, budgetExceeded := false } ∧
          t.node.ring = { n.ring with
            tripSlot := if own && held then none else n.ring.tripSlot
            insertQueue := n.ring.insertQueue ++ [answerFrame h 15 0] }))

/-- FAULT_COUNTS and FAULT_SUMMARY (R185, R186): with the count 0, code 1..32 clears that counter and code 0
all of them; FAULT_SUMMARY with 0 empties the first-fault record; any other value is refused RANGE and
nothing changes. Nothing else is cleared. -/
def Obligations.FaultRecordsAreCleared : Prop :=
  (∀ (h : Header) (code : Byte) (count : Half) (s : State), s.live → s.admitsWrite h 17 →
    ∃ t, exec (.faultCountsClear h code count) s = .next t ∧ s.keepsBut [.ring, .flt] t ∧
      (count ≠ 0 ∨ 32 < code.toNat → s.offers [answerFrame h 17 4] t) ∧
      (count = 0 → code.toNat ≤ 32 → s.roomFor 1 →
        t.node.ring = { s.node.ring with
          insertQueue := s.node.ring.insertQueue ++ [answerFrame h 17 0] } ∧
        t.node.flt = { s.node.flt with counters := t.node.flt.counters } ∧
        (code = 0 → ∀ k, t.node.flt.counters.getD k 0 = 0) ∧
        (code ≠ 0 → t.node.flt.counters.getD (code.toNat - 1) 0 = 0 ∧
          ∀ k, k + 1 ≠ code.toNat → t.node.flt.counters[k]? = s.node.flt.counters[k]?))) ∧
  (∀ (h : Header) (v : Byte) (s : State), s.live → s.admitsWrite h 18 →
    ∃ t, exec (.faultSummaryClear h v) s = .next t ∧ s.keepsBut [.ring, .flt] t ∧
      (v ≠ 0 → s.offers [answerFrame h 18 4] t) ∧
      (v = 0 → s.roomFor 1 →
        t.node.ring = { s.node.ring with
          insertQueue := s.node.ring.insertQueue ++ [answerFrame h 18 0] } ∧
        t.node.flt = { s.node.flt with first := none }))

/-- NODE_RESET (R194): a value other than 1 is refused RANGE in every stand state (that RANGE is judged first
is the model's choice, log 45), and a stand other than QUIET, PRESET and READY STATE, changing nothing;
otherwise the soft reset takes every block's clearings: the replies offered before, those of the aborted
requests among them (the model's choice, log 39), are flushed with the insert queue, what is flushed is added
to the flushed-frame count (the model's reading of R15, log 48, as of R65 for samples), and the ring state,
the configuration, the gap trim and the ACTIVE and LOADED slots are kept. -/
def Obligations.NodeResetTakesSoftReset : Prop :=
  ∀ (h : Header) (v : Byte) (s : State), s.live → s.admitsWrite h 21 →
    let n := s.node
    ∃ t, exec (.nodeReset h v) s = .next t ∧
      (v ≠ 1 → s.keepsBut [.ring, .flt] t ∧ s.offers [answerFrame h 21 4] t) ∧
      (v = 1 → n.seq.stand.quietish = false →
        s.keepsBut [.ring, .flt] t ∧ s.offers [answerFrame h 21 3] t) ∧
      (v = 1 → n.seq.stand.quietish = true →
        t.node.seq = { stand := .quiet, holds := Holds.empty, holdCount := 0, tailIgnored := 0 } ∧
        t.node.memb = { n.memb with graceTimer := none } ∧
        t.node.dir = { table := [], changed := ChangedFlags.clear } ∧
        t.node.meas = { n.meas with
          fifo := [], hold := false, overload := false, reversal := none
          flushedSamples := satAdd n.meas.flushedSamples n.meas.fifo.length } ∧
        t.node.track = Tracking.powerOn ∧
        t.node.sched = { n.sched with
          slots := mapFour Slot.dropLoading n.sched.slots, profile := none, coilChanges := 0
          flyingChanges := 0 } ∧
        t.node.gap.base = some s.settings.config.standbyGap ∧
        t.node.gap.reference = s.settings.config.standbyGap ∧
        t.node.gap.gapTrim = n.gap.gapTrim ∧ t.node.gap.ff = 0 ∧ t.node.gap.monitor = 0 ∧
        t.node.gap.profileTrim = 0 ∧ t.node.gap.cache = invalidCache ∧
        t.node.gap.counts = CoefCounts.zero ∧ t.node.gap.queue.length = min n.gap.queue.length 1 ∧
        t.node.gap.lastApplied = none ∧ t.node.gap.lastCoefs = none ∧ t.node.gap.waiting = none ∧
        t.node.startup = { n.startup with
          cause := .soft, softResets := min (n.startup.softResets + 1) 65535 } ∧
        t.node.trip = { n.trip with
          lines := t.node.trip.lines, active := none, pending := none, dropped := 0 } ∧
        (∀ k, getFour t.node.trip.lines k = { getFour n.trip.lines k with
          flag := levelMeets (getFour s.settings.config.lines k) (getFour n.pins.lines k) }) ∧
        s.keepsBut [.seq, .memb, .dir, .meas, .track, .sched, .gap, .startup, .trip, .ring, .flt] t ∧
        (s.roomFor (1 + n.dir.table.length) →
          t.node.flt = FaultUnit.powerOn ∧
          t.node.ring = { n.ring with
            insertQueue := [], tripSlot := none, passRun := 0, outstanding := []
            flushedCount := satAdd n.ring.flushedCount
              (n.ring.insertQueue.length + 1 + n.dir.table.length) }))

/-! ## Schedule Store (R124 to R128) -/

/-- Loading a schedule (R124 to R128). OPEN restarts its own LOADING slot, and otherwise starts the
lowest-numbered EMPTY slot; SECTION stores the next section; CLOSE makes the slot LOADED with the record of
its sections. A section out of order, above the declared count or of a wrong length, and a CLOSE with sections
missing, empty the slot with SCHED_REFUSED; a wrong check or an invalid record empties it as a failed load;
the expiry of an idle timer that has run out empties it without a REPLY, and has no effect where the slot is
not LOADING or its timer has been started again (log 2, 24). A station outside the authority list is answered
ACCESS to each of the three (R124), and nothing changes. -/
def Obligations.ScheduleLoadRuns : Prop :=
  (∀ (h : Header) (id count : Byte) (s : State), s.live → s.admitsSched h → s.slotLaw →
    let slots := s.node.sched.slots
    let fresh : Slot := .loading { id := id.toNat, source := h.source, declared := count.toNat
                                   sections := [], timer := 1000 }
    let reloads : Prop := ∃ k l, getFour slots k = .loading l ∧ l.id = id.toNat ∧ l.source = h.source
    let held : Prop := ∃ k, (getFour slots k).id = some id.toNat
    let full : Prop := ∀ k, getFour slots k ≠ .empty
    let other : Prop := ∃ k l, getFour slots k = .loading l ∧ l.source ≠ h.source
    let bad : Prop := id = 0 ∨ count ≠ 1 ∧ count ≠ 2
    ∃ t, exec (.schedOpen h id count) s = .next t ∧
      (bad → s.keepsBut [.ring, .flt] t ∧ s.offers [answerFrame h 255 4] t) ∧
      (¬ bad → ∀ k l, getFour slots k = .loading l → l.id = id.toNat → l.source = h.source →
        t.node.sched = { s.node.sched with slots := setFour slots k fresh } ∧
        s.keepsBut [.sched, .ring, .flt] t ∧ s.offers [answerFrame h 255 0] t) ∧
      (¬ bad → ¬ reloads → held → s.keepsBut [.ring, .flt] t ∧ s.offers [answerFrame h 255 3] t) ∧
      (¬ bad → ¬ held → full ∨ other →
        s.keepsBut [.ring, .flt] t ∧ s.offers [answerFrame h 255 5] t) ∧
      (¬ bad → ¬ held → ¬ other → ∀ k, getFour slots k = .empty → (∀ j < k, getFour slots j ≠ .empty) →
        t.node.sched = { s.node.sched with slots := setFour slots k fresh } ∧
        s.keepsBut [.sched, .ring, .flt] t ∧ s.offers [answerFrame h 255 0] t)) ∧
  (∀ (h : Header) (id number : Byte) (content : List Byte) (check : Half) (s : State), s.live →
    s.admitsSched h → s.slotLaw →
    let sched := s.node.sched
    let refused (k : Fin 4) (t : State) : Prop :=
      t.node.sched = { sched with slots := setFour sched.slots k .empty } ∧
      s.keepsBut [.sched, .ring, .flt] t ∧
      (s.roomFor 2 →
        t.node.flt = s.node.flt.after s.settings (eventOf .schedRefused s.node) ∧
        t.node.ring = { s.node.ring with
          insertQueue := queueAfter s.settings s.node.memb.ring (eventOf .schedRefused s.node)
            s.node.flt s.node.ring.insertQueue ++ [answerFrame h 255 4] })
    (∃ t, exec (.schedSection h id number content) s = .next t ∧
      (∀ k l, getFour sched.slots k = .loading l → l.id = id.toNat → l.source = h.source →
        let suits : Prop := number.toNat = l.sections.length + 1 ∧ number.toNat ≤ l.declared ∧
          (number = 1 → content.length = 18) ∧
          (number ≠ 1 → ∃ m more, content = m :: more ∧ m.toNat ≤ 8 ∧ more.length = 3 * m.toNat)
        (suits → t.node.sched = { sched with slots := setFour sched.slots k (.loading { l with
            sections := l.sections ++ [content], timer := 1000 }) } ∧
          s.keepsBut [.sched, .ring, .flt] t ∧ s.offers [answerFrame h 255 0] t) ∧
        (¬ suits → refused k t)) ∧
      ((∀ k l, getFour sched.slots k = .loading l → l.id = id.toNat → l.source ≠ h.source) →
        s.keepsBut [.ring, .flt] t ∧ s.offers [answerFrame h 255 3] t)) ∧
    (∃ t, exec (.schedClose h id check) s = .next t ∧
      (∀ k l, getFour sched.slots k = .loading l → l.id = id.toNat → l.source = h.source →
        let good : Prop := check = checkOf l.sections.flatten ∧ (scheduleOf l.sections).valid = true
        (l.sections.length < l.declared → refused k t) ∧
        (l.declared ≤ l.sections.length → ¬ good →
          t.node.sched = { sched with
            slots := setFour sched.slots k .empty, loadsFailed := satInc sched.loadsFailed } ∧
          s.keepsBut [.sched, .ring, .flt] t ∧ s.offers [answerFrame h 255 7] t) ∧
        (l.declared ≤ l.sections.length → good →
          t.node.sched = { sched with
            slots := setFour sched.slots k (.loaded id.toNat (scheduleOf l.sections))
            loadsCompleted := satInc sched.loadsCompleted } ∧
          s.keepsBut [.sched, .ring, .flt] t ∧ s.offers [answerFrame h 255 0] t)) ∧
      ((∀ k l, getFour sched.slots k = .loading l → l.id = id.toNat → l.source ≠ h.source) →
        s.keepsBut [.ring, .flt] t ∧ s.offers [answerFrame h 255 3] t))) ∧
  (∀ (k : Fin 4) (s : State), s.live →
    ∃ t, exec (.schedIdleTimeout k) s = .next t ∧
      (∀ l, getFour s.node.sched.slots k = .loading l → l.timer = 0 →
        t.node.sched = { s.node.sched with
          slots := setFour s.node.sched.slots k .empty
          loadTimeouts := satInc s.node.sched.loadTimeouts } ∧
        s.keepsBut [.sched, .ring, .flt] t ∧ s.offers [] t) ∧
      ((∀ l, getFour s.node.sched.slots k = .loading l → l.timer ≠ 0) →
        s.keepsBut [.ring, .flt] t ∧ s.offers [] t)) ∧
  (∀ (i : Instr) (h : Header) (id b : Byte) (content : List Byte) (check : Half) (s : State), s.live →
    i = .schedOpen h id b ∨ i = .schedSection h id b content ∨ i = .schedClose h id check →
    s.hands h → h.source.toNat ∉ s.settings.config.authority →
    ∃ t, exec i s = .next t ∧ s.keepsBut [.ring, .flt] t ∧ s.offers [answerFrame h 255 2] t)

/-! ## Strip records that arrive (R93 to R99, R164 to R166) -/

/-- A SEG (R93 to R96). From another station it counts as foreign; outside READY and the strip states as
unexpected; a number not ahead of E is a duplicate; a full queue raises ARRIVAL_FULL; one that is accepted
joins the tail with the due position of R95 and sets E, a HEAD first discarding the queue with its waiting
tag, and a number ahead of E raising TRACK_GAP and counting the missing numbers (the count of 1 for the next
number but one is log 12's). A record that joins an empty queue and is not yet due waits; one that is due is
applied at once: in READY, without WELD or TAIL, it gives its coil number, is kept as the last applied, and
takes the trim profile on as R134 says, without a reassembly; with WELD it makes the coil change (R132) first:
the changed flags are cleared, the report budget is reset, the profile restarts from its number and the coil
change is counted. -/
def Obligations.SegmentIsSequenced : Prop :=
  ∀ (h : Header) (p : SegPayload) (s : State), s.live → s.hands h →
    let n := s.node
    let tr := n.track
    let cnt := { tr.counts with received := satInc tr.counts.received }
    let up : Prop := h.source = byte s.settings.config.upstream
    let takes : Bool := n.seq.stand = .ready || n.seq.stand.strip
    let head : Bool := p.flags.getLsbD 0
    let q := if head then [] else tr.arrival
    let due0 := n.meas.entryCount + mm (min 12000 p.remaining.toNat) - mm s.settings.config.ffLead
    let due := match q.getLast? with
      | none => due0
      | some x => if passed x.due due0 then x.due else due0
    let rec' : ArrivalRecord :=
      { number := p.number, coil := p.coil
        deviation := if p.sampleCount = 0 then none
          else some (max (-2000) (min 2000 p.deviation.toInt))
        sampleCount := p.sampleCount.toNat, head := head, weld := p.flags.getLsbD 1
        tail := p.flags.getLsbD 2, offgauge := p.flags.getLsbD 3, beyond := p.flags.getLsbD 4
        remaining := min 12000 p.remaining.toNat, scheduleId := p.scheduleId.toNat, due := due }
    let joined (k : TrackCounts) : Tracking := { tr with
      arrival := q ++ [rec'], expected := some (p.number + 1), counts := k
      headWaiting := if head then false else tr.headWaiting }
    let inOrder : Prop := head = true ∨ tr.expected = none ∨ tr.expected = some p.number
    let waits : Prop := q ≠ [] ∨ reaches n.meas.entryCount due = false
    ∃ t, exec (.segReceived h p) s = .next t ∧
      (¬ up → t.node.track = { tr with counts := { tr.counts with foreign := satInc tr.counts.foreign } } ∧
        s.keepsBut [.track, .ring, .flt] t ∧ s.offers [] t) ∧
      (up → takes = false →
        t.node.track = { tr with
          counts := { tr.counts with unexpected := satInc tr.counts.unexpected } } ∧
        s.keepsBut [.track, .ring, .flt] t ∧ s.offers [] t) ∧
      (up → takes = true → head = true → waits →
        t.node.track = joined { cnt with
          arrivalDiscarded := satAdd cnt.arrivalDiscarded tr.arrival.length } ∧
        t.node.gap = { n.gap with waiting := none } ∧
        s.keepsBut [.track, .gap, .ring, .flt] t ∧ s.offers [] t) ∧
      (up → takes = true → head = false → ∀ e, tr.expected = some e → 32768 ≤ (p.number - e).toNat →
        t.node.track = { tr with counts := { cnt with duplicates := satInc cnt.duplicates } } ∧
        s.keepsBut [.track, .ring, .flt] t ∧ s.offers [] t) ∧
      (up → takes = true → head = false → ∀ e, tr.expected = some e → (p.number - e).toNat < 32768 →
        16 ≤ tr.arrival.length →
        t.node.track = { tr with counts := cnt } ∧
        s.keepsBut [.track, .ring, .flt] t ∧ s.reports .arrivalFull n t) ∧
      (up → takes = true → head = false → inOrder → tr.arrival.length < 16 → waits →
        t.node.track = joined cnt ∧ s.keepsBut [.track, .ring, .flt] t ∧ s.offers [] t) ∧
      (up → takes = true → head = false → ∀ e, tr.expected = some e →
        0 < (p.number - e).toNat → (p.number - e).toNat < 32768 → tr.arrival.length < 16 → waits →
        t.node.track = joined { cnt with
          trackGaps := satAdd cnt.trackGaps
            (if (p.number - e).toNat = 1 then 1 else (p.number - e).toNat - 1) } ∧
        s.keepsBut [.track, .ring, .flt] t ∧ s.reports .trackGap n t) ∧
      (up → n.seq.stand = .ready → head = false → inOrder → tr.arrival = [] → tr.headWaiting = false →
        rec'.weld = false → rec'.tail = false → reaches n.meas.entryCount due = true →
        ∃ run trim, n.profileTakes p.number run trim ∧
          t.node.track = { tr with
            expected := some (p.number + 1), entryCoil := p.coil
            counts := { cnt with applied := satInc cnt.applied } } ∧
          t.node.gap = { n.gap with
            waiting := none, profileTrim := trim, lastApplied := some (p.number, p.scheduleId.toNat) } ∧
          t.node.sched = { n.sched with profile := run } ∧
          s.keepsBut [.track, .gap, .sched, .ring, .flt] t ∧ s.offers [] t) ∧
      (up → n.seq.stand = .ready → head = false → inOrder → tr.arrival = [] → tr.headWaiting = false →
        s.gapLaw → rec'.weld = true → rec'.tail = false → reaches n.meas.entryCount due = true →
        t.node.track = { tr with
          expected := some (p.number + 1), entryCoil := p.coil
          counts := { cnt with applied := satInc cnt.applied } } ∧
        t.node.gap = { n.gap with
          waiting := none, profileTrim := 0, lastApplied := some (p.number, p.scheduleId.toNat) } ∧
        t.node.sched = { n.sched with
          profile := some { weld := p.number, id := n.sched.activeId, nextEntry := 1 }
          coilChanges := satInc n.sched.coilChanges } ∧
        t.node.dir = { n.dir with changed := ChangedFlags.clear } ∧
        s.keepsBut [.track, .gap, .sched, .dir, .ring, .flt] t ∧
        (s.roomFor 0 → t.node.ring = n.ring ∧
          t.node.flt = { n.flt with budgetCount := 0, budgetExceeded := false }))

/-- A MARK (R98, R99). From another station it counts as foreign; outside ROLLING it only counts; in ROLLING
one that follows the baseline by the mark interval is compared with it, and a difference beyond the tolerance
is a COBBLE, which trips the stand (that the baseline and the comparison are set first is the model's reading,
log 14); any other number raises MARK_GAP; in each case the baseline becomes this MARK. -/
def Obligations.MarkChecksCobble : Prop :=
  ∀ (h : Header) (p : MarkPayload) (s : State), s.live → s.hands h →
    let n := s.node
    let tr := n.track
    let cnt := { tr.counts with marksReceived := satInc tr.counts.marksReceived }
    let up : Prop := h.source = byte s.settings.config.upstream
    let interval : Nat := max 4 (min 64 p.interval.toNat)
    let length : Nat := max 250 (min 4000 p.length.toNat)
    let based : Tracking := { tr with baseline := some (p.number, n.meas.entryCount), counts := cnt }
    ∃ t, exec (.markReceived h p) s = .next t ∧
      (¬ up → t.node.track = { tr with counts := { tr.counts with foreign := satInc tr.counts.foreign } } ∧
        s.keepsBut [.track, .ring, .flt] t ∧ s.offers [] t) ∧
      (up → n.seq.stand ≠ .rolling → t.node.track = { tr with counts := cnt } ∧
        s.keepsBut [.track, .ring, .flt] t ∧ s.offers [] t) ∧
      (up → n.seq.stand = .rolling → tr.baseline = none →
        t.node.track = based ∧ s.keepsBut [.track, .ring, .flt] t ∧ s.offers [] t) ∧
      (up → n.seq.stand = .rolling → ∀ m0 c0, tr.baseline = some (m0, c0) →
        p.number ≠ m0 + BitVec.ofNat 16 interval →
        t.node.track = based ∧ s.keepsBut [.track, .ring, .flt] t ∧ s.reports .markGap n t) ∧
      (up → n.seq.stand = .rolling → ∀ m0 c0, tr.baseline = some (m0, c0) →
        p.number = m0 + BitVec.ofNat 16 interval →
        let advance : Int := (n.meas.entryCount - c0).toInt
        let diff : Int := advance - (interval : Int) * length
        let compared : Tracking := { based with comparison := some (advance, diff) }
        (diff.natAbs ≤ s.settings.config.cobbleTolerance →
          t.node.track = compared ∧ s.keepsBut [.track, .ring, .flt] t ∧ s.offers [] t) ∧
        (s.settings.config.cobbleTolerance < diff.natAbs → n.untripped →
          t.settings = s.settings ∧ t.paramMem = s.paramMem ∧ t.pending = s.pending ∧
          s.tripsByFault .cobble { n with track := compared } t))

/-- A TRIP frame (R164 to R167). An origin of station 0, of 31 or more, of this node, or already recorded is
ignored and counted. From a stand before a trip it is placed as the active origin and the stand enters
TRIPPED, with no TRIP frame of this node's own; in TRIPPED and LOCKOUT it takes the place of an unknown
active origin, or the first empty place, or is counted as dropped. -/
def Obligations.TripFrameIsRecorded : Prop :=
  ∀ (h : Header) (p : TripPayload) (s : State), s.live → s.hands h →
    let n := s.node
    let o : Origin := { station := p.station.toNat, standIndex := min 8 p.standIndex.toNat
                        causeKind := p.causeKind, detail := p.detail, number := p.number }
    let ignored : Bool := o.station = 0 || 31 ≤ o.station || o.station = s.settings.station ||
      n.trip.recorded o.station
    ∃ t, exec (.tripReceived h p) s = .next t ∧ t.settings = s.settings ∧ t.paramMem = s.paramMem ∧
      t.pending = s.pending ∧
      (ignored = true →
        t.node.trip = { n.trip with ignoredTrips := satInc n.trip.ignoredTrips } ∧
        s.keepsBut [.trip, .ring, .flt] t ∧ s.offers [] t) ∧
      (ignored = false → n.untripped →
        n.tripsTo s.settings t.node ∧
        t.node.trip = { n.trip with active := some o, tripEntries := satInc n.trip.tripEntries } ∧
        t.node.startup = n.startup ∧ t.node.pins = n.pins ∧ t.node.clock = n.clock ∧
        t.node.freeIndex = n.freeIndex ∧ s.offers (abortReplies n) t) ∧
      (ignored = false → n.seq.stand.stopped = true →
        t.node.trip = (match n.trip.active, n.trip.pending with
          | none, _ => { n.trip with active := some o }
          | some a, q =>
            if a.station = 0 then { n.trip with active := some o }
            else match q with
              | none => { n.trip with pending := some o }
              | some _ => { n.trip with dropped := satInc n.trip.dropped }) ∧
        s.keepsBut [.trip, .ring, .flt] t ∧ s.offers [] t)

/-! ## Measurement (R62 to R76, R83 to R87) -/

/-- A gauge sample (R62 to R64) outside a strip state and one with MEASURING negated are discarded and
counted, a full FIFO raises SAMPLE_OVERRUN, and any other joins the FIFO with the EXIT count as its stamp,
asserting HOLD at a depth of 24; one row is one assertion of VALID (log 29). A change of MEASURING (R66) raises
GAUGE_WITHDRAWN where it falls in ROLLING; a level that does not change is no event (log 21). The take of a
sample (R83 to R87) does nothing where no segment is open or the FIFO is empty (log 3, 24), and else takes
the FIFO's head, negating HOLD at a depth of 8: a stale one is counted, one within the span is added to the
open segment, and one beyond the span closes it as an exit record (its deviation, flags, span start and due
count are those of R86 and R87), and opens and closes as many segments without samples as its position passes,
before it is added to the next (R84); a take that empties the FIFO also closes the segments whose spans the EXIT
count less G has passed (R85). A record that closes waits in the exit track; a full one first gives up its head
with EXIT_TRACK_FULL, and a record already due is published at once (R90; the order of EXIT_TRACK_FULL is log
53's). A close in ROLLING updates the monitor (R142). -/
def Obligations.GaugeSamplesReachSegments : Prop :=
  (∀ (thickness : Nat) (good : Bool) (s : State), s.live →
    let m := s.node.meas
    let strip := s.node.seq.stand.strip
    let measuring := s.node.pins.measuring
    ∃ t, exec (.gaugeSample thickness good) s = .next t ∧
      (strip = false → t.node.meas = { m with idleDiscards := satInc m.idleDiscards } ∧
        s.keepsBut [.meas, .ring, .flt] t ∧ s.offers [] t) ∧
      (strip = true → measuring = false →
        t.node.meas = { m with withdrawnDiscards := satInc m.withdrawnDiscards } ∧
        s.keepsBut [.meas, .ring, .flt] t ∧ s.offers [] t) ∧
      (strip = true → measuring = true → 32 ≤ m.fifo.length →
        s.keepsBut [.ring, .flt] t ∧ s.reports .sampleOverrun s.node t) ∧
      (strip = true → measuring = true → m.fifo.length < 32 →
        t.node.meas = { m with
          fifo := m.fifo ++ [{ stamp := m.exitCount, thickness := min thickness 8000
                               good := good && thickness ≤ 8000 }]
          hold := m.hold || m.fifo.length + 1 = 24 } ∧
        s.keepsBut [.meas, .ring, .flt] t ∧ s.offers [] t)) ∧
  (∀ (level : Bool) (s : State), s.live →
    ∃ t, exec (.measuringChange level) s = .next t ∧
      t.node.pins = { s.node.pins with measuring := level } ∧ s.keepsBut [.pins, .ring, .flt] t ∧
      (if s.node.pins.measuring = true ∧ level = false ∧ s.node.seq.stand = .rolling then
        s.reports .gaugeWithdrawn s.node t
       else s.offers [] t)) ∧
  (∀ s : State, s.live →
    let n := s.node
    let tr := n.track
    let c := s.settings.config
    let spanEnd (g : OpenSegment) : Pos := g.spanStart + mm c.segLength
    let here : Pos := n.meas.exitCount - mm c.gaugeOffset
    let adds (g : OpenSegment) (x : Sample) : Bool := x.good && g.good < 65535
    let added (g : OpenSegment) (x : Sample) : Tracking :=
      if adds g x then
        { tr with openSeg := some { g with good := g.good + 1, sum := g.sum + x.thickness } }
      else { tr with
        openSeg := some { g with suspect := satInc g.suspect }
        counts := { tr.counts with suspect := satInc tr.counts.suspect } }
    let empty (g : OpenSegment) : Prop := g.good = 0 ∧ g.sum = 0 ∧ g.suspect = 0
    ∃ t, exec .sampleTake s = .next t ∧
      (tr.openSeg = none ∨ n.meas.fifo = [] → s.keepsBut [.ring, .flt] t ∧ s.offers [] t) ∧
      (∀ g x rest, tr.openSeg = some g → n.meas.fifo = x :: rest →
        let pos := x.stamp - mm c.gaugeOffset
        let taken : Meas := { n.meas with
          fifo := rest, hold := if rest.length = 8 then false else n.meas.hold }
        let sorted (u : Tracking) : State := { s with node := { n with meas := taken, track := u } }
        let stale : Tracking := { tr with counts := { tr.counts with stale := satInc tr.counts.stale } }
        let more : Prop := rest ≠ [] ∨ reaches here (spanEnd g) = false
        t.node.meas = taken ∧
        (reaches pos g.spanStart = false → more →
          t.node.track = stale ∧ s.keepsBut [.meas, .track, .ring, .flt] t ∧ s.offers [] t) ∧
        (reaches pos g.spanStart = true → reaches pos (spanEnd g) = false → more →
          t.node.track = added g x ∧ s.keepsBut [.meas, .track, .ring, .flt] t ∧ s.offers [] t) ∧
        (∀ id r, n.sched.active = some (id, r) →
          (reaches pos g.spanStart = true → reaches pos (spanEnd g) = true →
            let k := (pos - spanEnd g).toNat / c.segLength
            (rest ≠ [] ∨ reaches here (tr.origin + mm ((g.index + k + 1) * c.segLength) + mm c.segLength) =
              false) →
            (sorted tr).closesRun id r g k t ∧ s.keepsBut [.meas, .track, .gap, .ring, .flt] t ∧
            (∀ g', t.node.track.openSeg = some g' →
              if x.good then g'.good = 1 ∧ g'.sum = x.thickness ∧ g'.suspect = 0
              else g'.good = 0 ∧ g'.sum = 0 ∧ g'.suspect = 1)) ∧
          (rest = [] → reaches here (spanEnd g) = true → reaches pos (spanEnd g) = false →
            let k := (here - spanEnd g).toNat / c.segLength
            s.keepsBut [.meas, .track, .gap, .ring, .flt] t ∧
            (∀ g', t.node.track.openSeg = some g' → empty g') ∧
            (reaches pos g.spanStart = false → (sorted stale).closesRun id r g k t) ∧
            (reaches pos g.spanStart = true →
              ∀ g', (added g x).openSeg = some g' → (sorted (added g x)).closesRun id r g' k t)))))

/-- A force sample (R67 to R70, R77, R36, R111, R112, R115 to R118). Marked invalid, it raises FORCE_SENSOR
where the side was VALID, FATAL in a strip state. Marked valid, it gives the side its value, held at 30,000,
and the band and the load state follow. A load-on in READY enters THREADING with the thread gap as base and a
run begun; the conditions that stand there are raised again, the ring's first (log 18): with the route HOLD a
ring break and a lost neighbour hold the stand, and any other condition, or with the route TRIP any at all,
trips it, the further ones being local repeats. In QUIET and PRESET it raises UNEXPECTED_LOAD; a load-off in
TAILING ends the run and enters QUIET: the open segment closes with TAIL and joins the exit track, whose
records are then published, oldest first, with their true remaining distances and no MARK (R92; where the tail
record is already due, the due records go on time, R90); in THREADING and ROLLING a load-off raises
UNEXPECTED_LOAD; a total above the ACTIVE force limit in a strip state sets the overload mark and raises
OVERLOAD, by the route a hold or a trip; a total at 15/16 of the limit clears the mark and its hold cause, and
as the last cause to go in a strip state ends the hold, which reassembles the demand with the stored trims. In
STARTING the band is a free value (log 7) and no clause speaks of it. -/
def Obligations.ForceSampleIsJudged : Prop :=
  (∀ (side : Side) (force : Nat) (s : State), s.live → s.node.seq.stand ≠ .starting →
    let n := s.node
    let c := s.settings.config
    let m1 := n.meas.putForce side { value := min force 30000, valid := true }
    let total := m1.forceOS.value + m1.forceDS.value
    let m : Meas := { m1 with band := c.bandEdges.countP (· ≤ total) }
    let on : Prop := m.loadOn = false ∧ c.loadOn ≤ total
    let off : Prop := m.loadOn = true ∧ total ≤ c.loadOff
    let within : Prop := ∀ id r, n.sched.active = some (id, r) → total ≤ r.forceLimit
    let standing := standingFaults { n with meas := m }
    let trips (k : FaultCode) : Bool := c.route = .trip || (k ≠ .ringBreak && k ≠ .neighbourLost)
    let begun (r : Schedule) (t : State) : Prop :=
      t.node.meas = { m with loadOn := true, exitPeak := m.exitCount } ∧
      t.node.gap.base = some r.threadGap ∧
      (t.node.gap.reference : Int) =
        max (r.gapMin : Int) (min r.gapMax ((r.threadGap : Int) + n.gap.trims n.seq.holds.any)) ∧
      t.node.track.running = true ∧ t.node.track.origin = m.exitCount ∧
      t.node.track.exitCoil = n.track.entryCoil ∧ t.node.track.weldList = [] ∧
      t.node.track.nextNumber = n.track.nextNumber + 1 ∧
      (∃ g, t.node.track.openSeg = some g ∧ g.number = n.track.nextNumber ∧ g.index = 0 ∧
        g.spanStart = m.exitCount ∧ g.head = true ∧ g.coil = n.track.entryCoil ∧ g.good = 0)
    ∃ t, exec (.forceSample side true force) s = .next t ∧ t.settings = s.settings ∧
      t.paramMem = s.paramMem ∧ t.pending = s.pending ∧
      (¬ on → ¬ off → m.overload = false → n.seq.stand.strip = false ∨ within →
        t.node.meas = m ∧ s.keepsBut [.meas, .ring, .flt] t ∧ s.offers [] t) ∧
      (on → n.seq.stand = .ready → m.overload = false → within →
        ∀ id r, n.sched.active = some (id, r) →
        (standing = [] → t.node.seq = { n.seq with stand := .threading } ∧ begun r t) ∧
        (standing ≠ [] → standing.any trips = false →
          t.node.seq = { n.seq with
            stand := .threading
            holds := { n.seq.holds with
              ring := n.seq.holds.ring || n.memb.breakRecord ≠ .none
              neighbour := n.seq.holds.neighbour || n.memb.upstream.mark = .lost ||
                n.memb.downstream.mark = .lost }
            holdCount := if n.seq.holds.any then n.seq.holdCount else satInc n.seq.holdCount } ∧
          t.node.memb = { n.memb with
            graceTimer := if n.memb.breakRecord ≠ .none ∧ n.seq.holds.ring = false then
              some c.ringBreakGrace else n.memb.graceTimer } ∧
          t.node.gap.frozenTrim = (if n.seq.holds.any then n.gap.frozenTrim else n.gap.gapTrim) ∧
          t.node.gap.frozenProfile =
            (if n.seq.holds.any then n.gap.frozenProfile else n.gap.profileTrim) ∧ begun r t) ∧
        (n.untripped → ∀ k, standing.find? trips = some k →
          t.node.seq.stand = .tripped ∧ t.node.seq.holds = Holds.empty ∧
          t.node.trip = { n.trip with
            active := some { station := s.settings.station, standIndex := c.standIndex, causeKind := 2
                             detail := byte k.number, number := n.track.nextNumber }
            tripEntries := satInc n.trip.tripEntries
            localRepeats := if standing.countP trips = 1 then n.trip.localRepeats
              else satAdd n.trip.localRepeats (standing.countP trips - 1) } ∧
          t.node.gap.base = some c.retractGap ∧ t.node.gap.reference = c.retractGap ∧
          t.node.gap.supervision = .retracting ∧ t.node.track.openSeg = none ∧
          t.node.track.running = false ∧ t.node.track.exitTrack = [] ∧ t.node.track.arrival = [] ∧
          t.node.meas = { m with
            loadOn := true, exitPeak := m.exitCount, fifo := [], hold := false, overload := false
            reversal := none, flushedSamples := satAdd m.flushedSamples m.fifo.length }) ∧
        (s.settled → s.countersWhole → ∀ k ∈ standing,
          t.node.flt.counter k = satAdd (n.flt.counter k) (standing.count k))) ∧
      (on → n.seq.stand = .quiet ∨ n.seq.stand = .preset → n.untripped →
        s.tripsByFault .unexpectedLoad { n with meas := { m with loadOn := true } } t) ∧
      (off → n.seq.stand = .threading ∨ n.seq.stand = .rolling → n.untripped →
        s.tripsByFault .unexpectedLoad { n with meas := { m with loadOn := false } } t) ∧
      (off → n.seq.stand = .tailing →
        t.node.seq = { n.seq with stand := .quiet, holds := Holds.empty } ∧
        t.node.track.openSeg = none ∧ t.node.track.running = false ∧ t.node.track.exitTrack = [] ∧
        t.node.track.arrival = [] ∧ t.node.track.weldList = [] ∧
        t.node.gap.base = some c.standbyGap ∧ t.node.gap.reference = c.standbyGap ∧
        t.node.meas.loadOn = false ∧ t.node.meas.fifo = [] ∧
        ∀ g, n.track.openSeg = some g → ∀ id r, n.sched.active = some (id, r) →
        ∃ y, g.closedAs c id r true y ∧
          let all := n.track.exitTrack ++ [y]
          let due (x : ExitRecord) : Bool := reaches n.meas.exitCount x.due
          let onTime := if due y then all.takeWhile due else []
          let remaining := remainingAt c n.meas.exitCount
          let frames := publication c true remaining onTime ++
            publication c false remaining (all.drop onTime.length)
          t.node.track.lastClosed = g.number ∧ t.node.track.nextNumber = n.track.nextNumber ∧
          t.node.track.counts.closed = satInc n.track.counts.closed ∧
          t.node.track.counts.published = satAdd n.track.counts.published all.length ∧
          (n.track.exitTrack.length < 48 →
            (n.memb.ring.admits .seg = true → s.offers frames t ∧
              (s.roomFor frames.length →
                t.node.track.counts.publishRefused = n.track.counts.publishRefused)) ∧
            (n.memb.ring.admits .seg = false → s.offers [] t ∧
              t.node.track.counts.publishRefused =
                satAdd n.track.counts.publishRefused frames.length))) ∧
      (¬ on → ¬ off → m.overload = false → n.seq.stand.strip = true →
        ∀ id r, n.sched.active = some (id, r) → r.forceLimit < total →
        (c.route = .hold →
          t.node.meas = { m with overload := true } ∧ t.node.seq.stand = n.seq.stand ∧
          t.node.seq.holds.overload = true ∧
          s.keepsBut [.meas, .seq, .gap, .ring, .flt] t ∧ s.reports .overload n t) ∧
        (c.route = .trip → n.untripped →
          s.tripsByFault .overload { n with meas := { m with overload := true } } t)) ∧
      (¬ on → ¬ off → m.overload = true → ∀ id r, n.sched.active = some (id, r) →
        total ≤ 15 * r.forceLimit / 16 →
        t.node.meas = { m with overload := false } ∧ s.keepsBut [.meas, .seq, .gap, .ring, .flt] t ∧
        s.recovers { n.seq.holds with overload := false } t)) ∧
  (∀ (side : Side) (force : Nat) (s : State), s.live →
    let v := s.node.meas.force side
    let marked := { s.node with meas := s.node.meas.putForce side { v with valid := false } }
    ∃ t, exec (.forceSample side false force) s = .next t ∧
      (v.valid = false → s.keepsBut [.ring, .flt] t ∧ s.offers [] t) ∧
      (v.valid = true → s.node.seq.stand.strip = false →
        t.node.meas = marked.meas ∧ s.keepsBut [.meas, .ring, .flt] t ∧
        s.reports .forceSensor s.node t) ∧
      (v.valid = true → s.node.seq.stand.strip = true → s.node.untripped →
        s.tripsByFault .forceSensor marked t))

/-- A position sample (R71 to R73, R146, R147, R109, R172, R174). Marked invalid, it raises POSITION_SENSOR
where the side was VALID: a trip before a trip, LOCKOUT in TRIPPED. Marked valid, it gives the side its
value, held at 60,000, and the tilt mark follows; the mark set in a strip state raises TILT_LIMIT; a measured
gap within the tolerance of the target completes a move, in PRESET entering READY with the command DONE, and
completes a retract, leaving TRIPPED for QUIET where R172 admits it. In STARTING the tilt mark is a free
value (log 7) and no clause speaks of it. -/
def Obligations.PositionSampleIsJudged : Prop :=
  (∀ (side : Side) (position : Nat) (s : State), s.live → s.node.seq.stand ≠ .starting →
    let n := s.node
    let c := s.settings.config
    let m1 := n.meas.putPosition side { value := min position 60000, valid := true }
    let mark : Bool := c.tiltLimit < ((m1.posDS.value : Int) - m1.posOS.value).natAbs
    let m : Meas := { m1 with tiltMark := mark }
    let near (target : Nat) : Prop :=
      ((((m1.posOS.value + m1.posDS.value) / 2 : Nat) : Int) - target).natAbs ≤ c.positionTolerance
    let tilts : Prop := mark = true ∧ n.meas.tiltMark = false ∧ n.seq.stand.strip = true
    ∃ t, exec (.positionSample side true position) s = .next t ∧ t.settings = s.settings ∧
      t.paramMem = s.paramMem ∧ t.pending = s.pending ∧
      (¬ tilts → (n.gap.supervision ≠ .moving ∧ n.gap.supervision ≠ .retracting) ∨ ¬ near n.gap.target →
        t.node.meas = m ∧ s.keepsBut [.meas, .ring, .flt] t ∧ s.offers [] t) ∧
      (tilts → n.untripped → ¬ near c.retractGap →
        s.tripsByFault .tiltLimit { n with meas := m } t) ∧
      (¬ tilts → n.gap.supervision = .moving → near n.gap.target →
        t.node.meas = m ∧
        t.node.gap = { n.gap with
          supervision := .idle, timer := none
          moves := { n.gap.moves with completed := satInc n.gap.moves.completed } } ∧
        (n.seq.stand ≠ .preset → s.keepsBut [.meas, .gap, .ring, .flt] t ∧ s.offers [] t) ∧
        (n.seq.stand = .preset →
          t.node.seq = { n.seq with stand := .ready } ∧
          t.node.dir = { n.dir with table := n.dir.table.eraseP isPreset } ∧
          s.keepsBut [.meas, .gap, .seq, .dir, .ring, .flt] t ∧
          (n.memb.ring.admits .reply = true → s.offers ((n.dir.table.find? isPreset).toList.map
            (fun e => replyFrame e.requester e.tag e.index .done [])) t))) ∧
      (¬ tilts → n.gap.supervision = .retracting → near n.gap.target →
        let exits : Bool := n.seq.stand = .tripped && n.trip.active.isNone && n.trip.pending.isNone &&
          n.trip.dropped = 0 && n.pins.loopClosed
        (exits = false →
          t.node.meas = m ∧ t.node.gap = { n.gap with supervision := .retracted, timer := none } ∧
          s.keepsBut [.meas, .gap, .ring, .flt] t ∧ s.offers [] t) ∧
        (exits = true → n.pins.servoFlt = false →
          t.node.seq = { n.seq with stand := .quiet, holds := Holds.empty } ∧
          t.node.gap.reference = c.standbyGap ∧ t.node.trip = n.trip ∧ s.offers [] t))) ∧
  (∀ (side : Side) (position : Nat) (s : State), s.live →
    let v := s.node.meas.position side
    let marked := { s.node with meas := s.node.meas.putPosition side { v with valid := false } }
    ∃ t, exec (.positionSample side false position) s = .next t ∧
      (v.valid = false → s.keepsBut [.ring, .flt] t ∧ s.offers [] t) ∧
      (v.valid = true → s.node.untripped → s.tripsByFault .positionSensor marked t) ∧
      (v.valid = true → s.node.seq.stand = .tripped →
        t.node.meas = marked.meas ∧ t.node.seq = { s.node.seq with stand := .lockout } ∧
        t.node.gap = s.node.gap) ∧
      (v.valid = true → s.node.seq.stand = .starting →
        t.node.meas = marked.meas ∧ s.keepsBut [.meas, .ring, .flt] t ∧
        s.reports .positionSensor s.node t))

/-- A change of an encoder's lines (R74 to R76, R96, R117, R118, R140; forward is log 8's). The count follows
by one each way in every stand state; both lines at once count an encoder error. A forward pulse that reaches
nothing, and outside the strip states any that publishes and applies nothing, does no more. In a strip state
the first reverse pulse makes the reversal record and raises ENCODER_REVERSE, by the route a hold; a further
one sets its high mark to the EXIT peak. A forward EXIT pulse at the high mark plus the segment length empties
the record and clears the hold cause REVERSE, and as the last cause ends the hold, which reassembles the
demand (beside tracking on that pulse their order is free, log 16). A record whose due position the ENTRY
count reaches is applied (R96): outside ROLLING and in a hold the ff term stays (R140); in ROLLING it becomes
the cached coefficient times the deviation over 1,000, truncated, and 0 without effective feedforward or a
deviation; the highest entry reached of a running trim profile gives the profile trim and the next follows
(R134); a term that acts and has changed reassembles the demand (R139). Without a cached coefficient the head
waits, with its tag, and a fill is queued, or wanted where the queue is full (R97, R141). A record behind the
head already due raises LATE_APPLICATION (R96). One with TAIL takes ROLLING and THREADING to TAILING, with the
roll gap as base and a PENDING slot disarmed (R114); one with WELD makes the coil change (R132), with a slot
PENDING the flying change within it (R133; a DEMAND_CLAMPED there is log 40's), and leaves a weld mark (R88).
An exit record that the EXIT count reaches is published as a SEG with the publish lead, and a MARK where the
interval asks for one (R89, R91); a ring state that admits neither counts both as refused. A segment whose
span end the EXIT count less G reaches with the FIFO empty closes, with those after it that it has passed
(R85; the order of EXIT_TRACK_FULL is log 53's). -/
def Obligations.EncoderPulseMovesCount : Prop :=
  ∀ (which : Encoder) (a b : Bool) (s : State), s.live →
    let n := s.node
    let old := n.pins.encoder which
    let both : Prop := old.1 ≠ a ∧ old.2 ≠ b
    let forward : Prop := ¬ both ∧ old ≠ (a, b) ∧ (a, b) = (!old.2, old.1)
    let reverse : Prop := ¬ both ∧ old ≠ (a, b) ∧ (a, b) ≠ (!old.2, old.1)
    let still : Prop := n.track.arrival = [] ∧ n.track.openSeg = none ∧ n.track.exitTrack = [] ∧
      n.meas.reversal = none
    let ahead := n.meas.exitCount + 1
    let m : Meas := { n.meas with
      entryCount := if which = .exit then n.meas.entryCount
        else if old = (a, b) ∨ both then n.meas.entryCount
        else if (a, b) = (!old.2, old.1) then n.meas.entryCount + 1 else n.meas.entryCount - 1
      exitCount := if which = .entry then n.meas.exitCount
        else if old = (a, b) ∨ both then n.meas.exitCount
        else if (a, b) = (!old.2, old.1) then n.meas.exitCount + 1 else n.meas.exitCount - 1
      entryErrors := if which = .entry ∧ both then satInc n.meas.entryErrors else n.meas.entryErrors
      exitErrors := if which = .exit ∧ both then satInc n.meas.exitErrors else n.meas.exitErrors
      exitPeak := if which = .exit ∧ forward ∧ passed ahead n.meas.exitPeak = true then ahead
        else n.meas.exitPeak }
    let due (high : Pos) : Bool := reaches m.exitCount (high + mm s.settings.config.segLength)
    let calm : Prop := (which = .entry → n.track.arrival = []) ∧
      (which = .exit →
        (∀ g, n.track.openSeg = some g → n.meas.fifo ≠ [] ∨
          reaches (m.exitCount - mm s.settings.config.gaugeOffset)
            (g.spanStart + mm s.settings.config.segLength) = false) ∧
        (∀ y, n.track.exitTrack.head? = some y → reaches m.exitCount y.due = false))
    let unreversed : Holds := { n.seq.holds with reverse := false }
    let applied (r : ArrivalRecord) (rest : List ArrivalRecord) (late : Bool) : Tracking := { n.track with
      arrival := rest, entryCoil := r.coil
      counts := { n.track.counts with
        applied := satInc n.track.counts.applied
        late := if late then satInc n.track.counts.late else n.track.counts.late } }
    let here : Pos := m.exitCount - mm s.settings.config.gaugeOffset
    let spanEnd (g : OpenSegment) : Pos := g.spanStart + mm s.settings.config.segLength
    ∃ t, exec (.encoderPulse which a b) s = .next t ∧ t.settings = s.settings ∧
      t.paramMem = s.paramMem ∧ t.pending = s.pending ∧
      t.node.pins = n.pins.putEncoder which a b ∧
      t.node.meas.entryCount = m.entryCount ∧ t.node.meas.exitCount = m.exitCount ∧
      t.node.meas.entryErrors = m.entryErrors ∧ t.node.meas.exitErrors = m.exitErrors ∧
      t.node.meas.exitPeak = m.exitPeak ∧
      (old = (a, b) ∨ both ∨ (n.seq.stand.strip = false ∧ still) →
        t.node.meas = m ∧ s.keepsBut [.pins, .meas, .ring, .flt] t ∧ s.offers [] t) ∧
      (reverse → n.seq.stand.strip = true → n.meas.reversal = none → s.settings.config.route = .hold →
        which = .exit ∨ n.track.arrival = [] →
        t.node.meas.reversal = some n.meas.exitPeak ∧ t.node.seq.stand = n.seq.stand ∧
        t.node.seq.holds.reverse = true) ∧
      (reverse → n.seq.stand.strip = true → calm → ∀ high, n.meas.reversal = some high →
        t.node.meas = { m with reversal := some n.meas.exitPeak } ∧
        s.keepsBut [.pins, .meas, .ring, .flt] t ∧ s.offers [] t) ∧
      (forward → calm → (which = .exit → ∀ high, n.meas.reversal = some high → due high = false) →
        t.node.meas = m ∧ s.keepsBut [.pins, .meas, .ring, .flt] t ∧ s.offers [] t) ∧
      (forward → which = .exit → ∀ high, n.meas.reversal = some high → due high = true →
        t.node.meas.reversal = none ∧ t.node.seq = { n.seq with holds := unreversed } ∧
        (calm → t.node.meas = { m with reversal := none } ∧
          s.keepsBut [.pins, .meas, .seq, .gap, .freeIndex, .ring, .flt] t ∧
          s.recovers unreversed t)) ∧
      (forward → which = .entry → n.track.headWaiting = false → ∀ r rest, n.track.arrival = r :: rest →
        reaches m.entryCount r.due = true → r.weld = false → r.tail = false →
        (∀ v, n.ffTakes r v → (∀ x, rest.head? = some x → reaches m.entryCount x.due = false) →
          ∃ run trim, n.profileTakes r.number run trim ∧
            t.node.track = applied r rest false ∧ t.node.sched = { n.sched with profile := run } ∧
            t.node.meas = m ∧ t.node.gap.ff = v ∧ t.node.gap.profileTrim = trim ∧
            t.node.gap.waiting = none ∧ t.node.gap.lastApplied = some (r.number, r.scheduleId) ∧
            t.node.gap.monitor = n.gap.monitor ∧ t.node.gap.base = n.gap.base ∧
            (∀ d tag k, n.ffLooks r d tag → n.gap.cached tag = some k → t.node.gap.lastCoefs = some k) ∧
            s.keepsBut [.pins, .meas, .track, .sched, .gap, .ring, .flt] t ∧
            let moves : Prop := n.seq.stand.strip = true ∧ n.seq.holds.any = false ∧
              (v ≠ n.gap.ff ∨ trim ≠ n.gap.profileTrim)
            (moves → ∀ id sc base, n.sched.active = some (id, sc) → n.gap.base = some base →
              (t.node.gap.reference : Int) = clamped sc ((base : Int) +
                (if n.seq.stand = .threading then 0 else v + n.gap.monitor) + (n.gap.gapTrim + trim))) ∧
            (¬ moves → t.node.gap.reference = n.gap.reference ∧ s.offers [] t)) ∧
        (∀ d tag, n.ffLooks r d tag → n.gap.cached tag = none →
          let late : Bool := match rest.head? with
            | some x => passed m.entryCount x.due
            | none => false
          let filling : Bool := n.gap.queue.contains (.fill tag)
          let room : Bool := n.gap.queue.length < 4
          t.node.track = { n.track with
            headWaiting := true, entryCoil := r.coil
            counts := { n.track.counts with
              applied := satInc n.track.counts.applied
              late := if late then satInc n.track.counts.late else n.track.counts.late } } ∧
          t.node.gap = { n.gap with
            waiting := some { tag := tag, wanted := !filling && !room }
            queue := if !filling && room then n.gap.queue ++ [.fill tag] else n.gap.queue
            opTimer := if n.gap.queue = [] then some 20 else n.gap.opTimer
            counts := { n.gap.counts with misses := satInc n.gap.counts.misses } } ∧
          t.node.meas = m ∧ s.keepsBut [.pins, .meas, .track, .gap, .ring, .flt] t ∧
          (if late then s.reports .lateApplication n t else s.offers [] t)) ∧
        (∀ b v, rest = [b] → reaches m.entryCount b.due = true → b.weld = false → b.tail = false →
          n.sched.profile = none → n.ffTakes r v → (∀ d tag, ¬ n.ffLooks r d tag) → n.ffTakes b v →
          (∀ d tag, ¬ n.ffLooks b d tag) →
          let late := passed m.entryCount b.due
          t.node.track = { applied b [] late with
            counts := { (applied b [] late).counts with applied := satAdd n.track.counts.applied 2 } } ∧
          t.node.gap.ff = v ∧ t.node.gap.lastApplied = some (b.number, b.scheduleId) ∧
          t.node.meas = m ∧ s.keepsBut [.pins, .meas, .track, .gap, .ring, .flt] t ∧
          (v = n.gap.ff → t.node.gap = { n.gap with
              waiting := none, lastApplied := some (b.number, b.scheduleId) } ∧
            (if late then s.reports .lateApplication n t else s.offers [] t)) ∧
          (v ≠ n.gap.ff → ∀ id sc base, n.sched.active = some (id, sc) → n.gap.base = some base →
            (t.node.gap.reference : Int) = clamped sc ((base : Int) + v + n.gap.monitor +
              (n.gap.gapTrim + n.gap.profileTrim))))) ∧
      (forward → which = .entry → n.seq.stand = .rolling ∨ n.seq.stand = .threading →
        n.track.headWaiting = false →
        ∀ r v, n.track.arrival = [r] → reaches m.entryCount r.due = true → r.weld = false →
        r.tail = true → n.ffTakes r v → ∀ id sc, n.sched.active = some (id, sc) →
        ∃ run trim, n.profileTakes r.number run trim ∧ t.node.seq = { n.seq with stand := .tailing } ∧
          t.node.sched = { n.sched with
            slots := mapFour Slot.disarm n.sched.slots, profile := run } ∧
          t.node.track = applied r [] false ∧
          t.node.gap.base = some sc.rollGap ∧ t.node.gap.ff = v ∧ t.node.gap.profileTrim = trim ∧
          (t.node.gap.reference : Int) = clamped sc ((sc.rollGap : Int) + v + n.gap.monitor +
            (if n.seq.holds.any then n.gap.frozenTrim + n.gap.frozenProfile
              else n.gap.gapTrim + trim))) ∧
      (forward → which = .entry → n.seq.stand = .rolling → n.seq.holds.any = false → s.gapLaw →
        n.track.headWaiting = false → n.gap.ffEnable = false →
        ∀ r, n.track.arrival = [r] → reaches (n.meas.entryCount + 1) r.due = true →
        r.weld = true → r.tail = false →
        ∀ id sc, n.sched.active = some (id, sc) → ∀ base, n.gap.base = some base →
        let changed (profileId : Nat) : Prop :=
          t.node.dir = { n.dir with changed := ChangedFlags.clear } ∧ t.node.seq = n.seq ∧
          t.node.sched.profile = some { weld := r.number, id := profileId, nextEntry := 1 } ∧
          t.node.sched.coilChanges = satInc n.sched.coilChanges ∧
          t.node.track.entryCoil = r.coil ∧ t.node.track.arrival = [] ∧
          t.node.track.counts.applied = satInc n.track.counts.applied ∧
          t.node.gap.ff = 0 ∧ t.node.gap.profileTrim = 0 ∧ t.node.gap.gapTrim = n.gap.gapTrim
        (n.sched.pendingSlot = none →
          changed id ∧ t.node.sched.slots = n.sched.slots ∧
          t.node.sched.flyingChanges = n.sched.flyingChanges ∧ t.node.gap.base = n.gap.base ∧
          t.node.gap.monitor = n.gap.monitor ∧
          (t.node.gap.reference : Int) =
            clamped sc ((base : Int) + n.gap.monitor + n.gap.gapTrim) ∧
          (s.roomFor 0 → within sc ((base : Int) + n.gap.ff + n.gap.monitor + n.gap.gapTrim) →
            within sc ((base : Int) + n.gap.monitor + n.gap.gapTrim) →
            t.node.flt = { n.flt with budgetCount := 0, budgetExceeded := false } ∧
            t.node.ring = n.ring)) ∧
        (∀ id' sc', n.sched.pendingSlot = some (id', sc') →
          changed id' ∧ t.node.sched.slots = mapFour Slot.fly n.sched.slots ∧
          t.node.sched.flyingChanges = satInc n.sched.flyingChanges ∧
          t.node.gap.base = some sc'.rollGap ∧ t.node.gap.monitor = 0 ∧
          (t.node.gap.reference : Int) = clamped sc' ((sc'.rollGap : Int) + n.gap.gapTrim) ∧
          (s.roomFor 0 →
            within sc' ((sc'.rollGap : Int) + n.gap.gapTrim + n.gap.profileTrim) →
            within sc' ((sc'.rollGap : Int) + n.gap.gapTrim) →
            t.node.flt = { n.flt with budgetCount := 0, budgetExceeded := false } ∧
            t.node.ring = n.ring)) ∧
        (4 ≤ n.track.weldList.length → t.node.track.weldList = n.track.weldList ∧
          t.node.track.counts.droppedWelds = satInc n.track.counts.droppedWelds) ∧
        (n.track.weldList = [] → ∀ g, n.track.openSeg = some g →
          if passed (g.spanStart + mm s.settings.config.segLength) n.meas.exitCount then
            t.node.track.weldList = [] ∧ t.node.track.exitCoil = r.coil ∧
            t.node.track.openSeg = some { g with weld := true, coil := r.coil }
          else t.node.track.openSeg = some g ∧
            t.node.track.weldList = [{ at_ := n.meas.exitCount, coil := r.coil }])) ∧
      (forward → which = .exit → n.meas.reversal = none →
        (∀ g, n.track.openSeg = some g → n.meas.fifo ≠ [] ∨
          reaches (ahead - mm s.settings.config.gaugeOffset)
            (g.spanStart + mm s.settings.config.segLength) = false) →
        ∀ x rest, n.track.exitTrack = x :: rest → reaches ahead x.due = true →
        (∀ y, rest.head? = some y → reaches ahead y.due = false) →
        let c := s.settings.config
        let frames := publication c true (fun _ => c.publishLead) [x]
        let published (refused : Nat) : Tracking := { n.track with
          exitTrack := rest
          counts := { n.track.counts with
            published := satInc n.track.counts.published, publishRefused := refused } }
        t.node.meas = m ∧ s.keepsBut [.pins, .meas, .track, .ring, .flt] t ∧
        (n.memb.ring.admits .seg = true → s.offers frames t ∧
          (s.roomFor frames.length →
            t.node.track = published n.track.counts.publishRefused)) ∧
        (n.memb.ring.admits .seg = false → s.offers [] t ∧
          t.node.track = published (satAdd n.track.counts.publishRefused frames.length))) ∧
      (forward → which = .exit → (∀ high, n.meas.reversal = some high → due high = false) →
        ∀ g, n.track.openSeg = some g → n.meas.fifo = [] → reaches here (spanEnd g) = true →
        ∀ id r, n.sched.active = some (id, r) →
        let b : State := { s with node := { n with pins := n.pins.putEncoder which a b, meas := m } }
        let k := (here - spanEnd g).toNat / s.settings.config.segLength
        t.node.meas = m ∧ s.keepsBut [.pins, .meas, .track, .gap, .ring, .flt] t ∧
        t.node.track.lastClosed = (if k = 0 then g.number
          else n.track.nextNumber + BitVec.ofNat 16 (k - 1)) ∧
        (∀ g', t.node.track.openSeg = some g' → g'.good = 0 ∧ g'.sum = 0 ∧ g'.suspect = 0) ∧
        ((∀ x ∈ n.track.exitTrack.take 2, reaches m.exitCount x.due = false) →
          b.closesRun id r g k t))

/-! ## Gap Controller and Parameter Port (R146 to R153) -/

/-- The move timer and the retract timer (R146, R147, R109, R174). An expired move becomes IDLE, is counted
and raises MOVE_TIMEOUT: in PRESET, where it is CORRECTABLE, the stand then enters QUIET and the command is
answered FAILED; in a strip state it trips. An expired retract becomes RETRACT_FAILED and raises
RETRACT_TIMEOUT, a local cause, which takes TRIPPED to LOCKOUT and leaves LOCKOUT as it is. The rows act on a
timer that has run out: one that a superseding change has started again (R145), or that is stopped, does
nothing (log 2). -/
def Obligations.SupervisionTimersExpire : Prop :=
  (∀ s : State, s.live →
    let n := s.node
    let out : GapControl := { n.gap with
      supervision := .idle, timer := none
      moves := { n.gap.moves with timedOut := satInc n.gap.moves.timedOut } }
    let runs : Prop := n.gap.supervision = .moving ∧ n.gap.timer = some 0
    ∃ t, exec .moveTimerExpiry s = .next t ∧ t.settings = s.settings ∧ t.paramMem = s.paramMem ∧
      t.pending = s.pending ∧
      (¬ runs → s.keepsBut [.ring, .flt] t ∧ s.offers [] t) ∧
      (runs → n.seq.stand ≠ .preset → n.seq.stand.strip = false →
        t.node.gap = out ∧ s.keepsBut [.gap, .ring, .flt] t ∧ s.reports .moveTimeout n t) ∧
      (runs → n.seq.stand = .preset →
        { n with gap := out }.quietsTo s.settings t.node ∧
        t.node.dir = { table := n.dir.table.eraseP isPreset, changed := ChangedFlags.clear } ∧
        t.node.gap.base = some s.settings.config.standbyGap ∧
        t.node.gap.reference = s.settings.config.standbyGap ∧ t.node.gap.moves.timedOut =
          satInc n.gap.moves.timedOut ∧
        s.keepsBut [.seq, .memb, .dir, .meas, .track, .sched, .gap, .ring, .flt] t ∧
        (s.roomFor 2 →
          t.node.flt = n.flt.after s.settings (eventOf .moveTimeout n) ∧
          t.node.ring = { n.ring with
            insertQueue := queueAfter s.settings n.memb.ring (eventOf .moveTimeout n) n.flt
                n.ring.insertQueue ++
              (if n.memb.ring.admits .reply then
                (n.dir.table.find? isPreset).toList.map
                  (fun e => replyFrame e.requester e.tag e.index .failed [])
              else []) })) ∧
      (runs → n.seq.stand.strip = true → n.untripped →
        s.tripsByFault .moveTimeout { n with gap := out } t)) ∧
  (∀ s : State, s.live →
    let n := s.node
    let runs : Prop := n.gap.supervision = .retracting ∧ n.gap.timer = some 0
    ∃ t, exec .retractTimerExpiry s = .next t ∧ t.settings = s.settings ∧ t.paramMem = s.paramMem ∧
      t.pending = s.pending ∧
      (¬ runs → s.keepsBut [.ring, .flt] t ∧ s.offers [] t) ∧
      (runs → n.seq.stand.stopped = true →
        t.node.seq = { n.seq with stand := .lockout } ∧
        t.node.gap = { n.gap with supervision := .retractFailed, timer := none } ∧
        s.keepsBut [.seq, .gap, .trip, .ring, .flt] t ∧ s.repeatsFault .retractTimeout n t))

/-- The end of an operation of the Parameter Port (R52, R97, R141, R150 to R153). With no such operation in
service nothing happens (log 24). What a fill's end delivers is taken into the memory first (log 9). An intact
record is installed in the way that the MRU mark does not name, which it then names, and every COEF_READ that
waits on it is answered with it; any other record fails them. A write's end stores the record, updates a valid
cached copy and answers DONE. The expiry of a timer that has run out raises PARAM_TIMEOUT, and fails the
fill's readers, or the write, making its cached copy invalid; a timer that a completion has started again for
the next operation does nothing (log 2). The queue's next head enters service
with 20 ms, a wanted fill having joined the tail first. An application that waits on the fill is told of its
end before the readers (the order is log 19's, the last coefficients used are log 20's): in ROLLING with no
hold its record is applied with the installed coefficient, or with COEF_UNUSABLE and an ff term of 0, and with
the step of the profile that its number reaches (R134). The ends are placed by the sender (log 28). -/
def Obligations.ParameterOperationEnds : Prop :=
  (∀ (record : MemRead) (s : State), s.live →
    ((∀ tag ops, s.node.gap.queue ≠ .fill tag :: ops) → exec (.fillComplete record) s = .next s) ∧
    (∀ tag ops, s.node.gap.queue = .fill tag :: ops → s.node.gap.waiting = none →
      let g := s.node.gap
      let mem := memTake s.paramMem tag.offset 9 record
      let readers := s.node.dir.table.filter (fun e => e.kind = .coefRead && e.coef = some tag)
      let old := g.cache.getD ((tag.pclass + tag.band) % 8) CacheSet.invalid
      let next (k : GapControl) : GapControl := { k with
        queue := ops, opTimer := if ops = [] then none else some 20 }
      ∃ t, exec (.fillComplete record) s = .next t ∧ t.settings = s.settings ∧ t.paramMem = mem ∧
        t.pending = s.pending ∧ s.node.keepsBut [.dir, .gap, .ring, .flt] t.node ∧
        t.node.dir = { s.node.dir with
          table := s.node.dir.table.filter (fun e => !(e.kind = .coefRead && e.coef = some tag)) } ∧
        (∀ r, recordRead tag (memReadBytes mem tag.offset 9) = some r →
          t.node.gap = next { g with
            cache := g.cache.set ((tag.pclass + tag.band) % 8)
              (if old.mru1 then { way0 := some r, way1 := old.way1, mru1 := false }
               else { way0 := old.way0, way1 := some r, mru1 := true })
            counts := { g.counts with fillsInstalled := satInc g.counts.fillsInstalled } } ∧
          (s.node.memb.ring.admits .reply = true →
            s.offers (readers.map (fun e => replyFrame e.requester e.tag e.index .done r.value)) t)) ∧
        (recordRead tag (memReadBytes mem tag.offset 9) = none →
          t.node.gap = next { g with
            counts := { g.counts with fillsFailed := satInc g.counts.fillsFailed } } ∧
          (s.node.memb.ring.admits .reply = true →
            s.offers (readers.map (fun e => replyFrame e.requester e.tag e.index .failed [])) t)))) ∧
  (∀ s : State, s.live →
    let g := s.node.gap
    let replaced (tag : CoefTag) (w : Option CoefRecord) : List CacheSet :=
      g.cache.set ((tag.pclass + tag.band) % 8)
        ((g.cache.getD ((tag.pclass + tag.band) % 8) CacheSet.invalid).update tag w)
    let writer (tag : CoefTag) (e : ReqEntry) : Bool := e.kind = .coefWrite && e.coef = some tag
    let timedOut (replies : List OwnFrame) (t : State) : Prop :=
      s.roomFor (1 + replies.length) →
        t.node.flt = s.node.flt.after s.settings (eventOf .paramTimeout s.node) ∧
        t.node.ring = { s.node.ring with
          insertQueue := queueAfter s.settings s.node.memb.ring (eventOf .paramTimeout s.node)
              s.node.flt s.node.ring.insertQueue ++
            (if s.node.memb.ring.admits .reply then replies else []) }
    ((∀ r e ops, g.queue ≠ .write r e :: ops) → exec .coefWriteComplete s = .next s) ∧
    (∀ r ops, g.queue = .write r true :: ops → g.waiting = none →
      ∃ t, exec .coefWriteComplete s = .next t ∧ t.settings = s.settings ∧
        t.paramMem = memWriteBytes s.paramMem r.tag.offset r.bytes ∧ t.pending = s.pending ∧
        s.node.keepsBut [.dir, .gap, .ring, .flt] t.node ∧
        t.node.gap = { g with
          cache := replaced r.tag (some r), queue := ops
          opTimer := if ops = [] then none else some 20 } ∧
        t.node.dir = { s.node.dir with table := s.node.dir.table.eraseP (writer r.tag) } ∧
        (s.node.memb.ring.admits .reply = true →
          s.offers ((s.node.dir.table.find? (writer r.tag)).toList.map
            (fun e => replyFrame e.requester e.tag e.index .done [])) t)) ∧
    (∀ r ops, g.queue = .write r false :: ops → g.waiting = none →
      ∃ t, exec .coefWriteComplete s = .next t ∧ t.settings = s.settings ∧
        t.paramMem = memWriteBytes s.paramMem r.tag.offset r.bytes ∧ t.pending = s.pending ∧
        s.node.keepsBut [.gap, .ring, .flt] t.node ∧
        t.node.gap = { g with
          cache := replaced r.tag (some r), queue := ops
          opTimer := if ops = [] then none else some 20 } ∧ s.offers [] t) ∧
    (g.queue = [] ∨ g.opTimer ≠ some 0 →
      ∃ t, exec .paramOpTimeout s = .next t ∧ s.keepsBut [.ring, .flt] t ∧ s.offers [] t) ∧
    (∀ tag ops, g.queue = .fill tag :: ops → g.waiting = none → g.opTimer = some 0 →
      ∃ t, exec .paramOpTimeout s = .next t ∧ s.keepsBut [.dir, .gap, .ring, .flt] t ∧
        t.node.gap = { g with
          queue := ops, opTimer := if ops = [] then none else some 20
          counts := { g.counts with fillsFailed := satInc g.counts.fillsFailed } } ∧
        t.node.dir = { s.node.dir with
          table := s.node.dir.table.filter (fun e => !(e.kind = .coefRead && e.coef = some tag)) } ∧
        timedOut ((s.node.dir.table.filter (fun e => e.kind = .coefRead && e.coef = some tag)).map
          (fun e => replyFrame e.requester e.tag e.index .failed [])) t) ∧
    (∀ r ops, g.queue = .write r true :: ops → g.waiting = none → g.opTimer = some 0 →
      ∃ t, exec .paramOpTimeout s = .next t ∧ s.keepsBut [.dir, .gap, .ring, .flt] t ∧
        t.node.gap = { g with
          cache := replaced r.tag none, queue := ops
          opTimer := if ops = [] then none else some 20 } ∧
        t.node.dir = { s.node.dir with table := s.node.dir.table.eraseP (writer r.tag) } ∧
        timedOut ((s.node.dir.table.find? (writer r.tag)).toList.map
          (fun e => replyFrame e.requester e.tag e.index .failed [])) t) ∧
    (∀ r ops, g.queue = .write r false :: ops → g.waiting = none → g.opTimer = some 0 →
      ∃ t, exec .paramOpTimeout s = .next t ∧ s.keepsBut [.gap, .ring, .flt] t ∧
        t.node.gap = { g with
          cache := replaced r.tag none, queue := ops
          opTimer := if ops = [] then none else some 20 } ∧ timedOut [] t)) ∧
  (∀ (record : MemRead) (s : State), s.live →
    let n := s.node
    let g := n.gap
    (∀ w, g.waiting = some w → w.wanted = true →
      ∀ r e ops, g.queue = .write r e :: ops → ∃ t, exec .coefWriteComplete s = .next t ∧
        t.node.gap.queue = ops ++ [.fill w.tag] ∧ t.node.gap.opTimer = some 20 ∧
        t.node.gap.waiting = some { w with wanted := false } ∧ t.node.track = n.track) ∧
    (∀ tag ops, g.queue = .fill tag :: ops → ∀ w, g.waiting = some w → w.wanted = false →
      w.tag ≠ tag → ∃ t, exec (.fillComplete record) s = .next t ∧ t.node.track = n.track ∧
        t.node.gap.waiting = some w ∧ t.node.gap.ff = g.ff) ∧
    (∀ tag ops, g.queue = .fill tag :: ops → ∀ w, g.waiting = some w → w.wanted = false →
      w.tag = tag → n.seq.stand = .rolling → n.seq.holds.any = false → g.ffEnable = true →
      ∀ id sc, n.sched.active = some (id, sc) → sc.ffAllowed = true → ∀ base, g.base = some base →
      ∀ a, n.track.arrival.head? = some a → n.track.arrival.length = 1 →
      ∀ d, a.deviation = some d →
      let got := recordRead tag (memReadBytes (memTake s.paramMem tag.offset 9 record) tag.offset 9)
      let readers := n.dir.table.filter (fun e => e.kind = .coefRead && e.coef = some tag)
      let applied (ff : Int) (t : State) : Prop :=
        t.node.track = { n.track with arrival := [], headWaiting := false } ∧
        t.node.seq = n.seq ∧ t.node.gap.waiting = none ∧ t.node.gap.queue = ops ∧
        t.node.gap.lastApplied = some (a.number, a.scheduleId) ∧ t.node.gap.ff = ff ∧
        ∃ run trim, n.profileTakes a.number run trim ∧ t.node.sched = { n.sched with profile := run } ∧
          t.node.gap.profileTrim = trim ∧
          (ff ≠ g.ff ∨ trim ≠ g.profileTrim → (t.node.gap.reference : Int) =
            clamped sc ((base : Int) + ff + g.monitor + (g.gapTrim + trim))) ∧
          (ff = g.ff → trim = g.profileTrim → t.node.gap.reference = g.reference)
      (∀ r, got = some r → ∃ t, exec (.fillComplete record) s = .next t ∧
        applied ((r.ff * d).tdiv 1000) t ∧ t.node.gap.lastCoefs = some r ∧
        ((r.ff * d).tdiv 1000 = g.ff → t.node.gap.profileTrim = g.profileTrim →
          n.memb.ring.admits .reply = true →
          s.offers (readers.map (fun e => replyFrame e.requester e.tag e.index .done r.value)) t)) ∧
      (got = none → ∃ t, exec (.fillComplete record) s = .next t ∧ applied 0 t ∧
        t.node.gap.lastCoefs = g.lastCoefs ∧
        (g.ff = 0 → t.node.gap.profileTrim = g.profileTrim → n.memb.ring.admits .reply = true →
          s.roomFor (1 + readers.length) →
          t.node.flt = n.flt.after s.settings (eventOf .coefUnusable n) ∧
          t.node.ring = { n.ring with
            insertQueue := queueAfter s.settings n.memb.ring (eventOf .coefUnusable n) n.flt
                n.ring.insertQueue ++
              readers.map (fun e => replyFrame e.requester e.tag e.index .failed []) })) ∧
      (g.opTimer = some 0 → ∃ t, exec .paramOpTimeout s = .next t ∧ applied 0 t ∧
        (g.ff = 0 → t.node.gap.profileTrim = g.profileTrim → n.memb.ring.admits .reply = true →
          s.roomFor (2 + readers.length) →
          let flt := n.flt.after s.settings (eventOf .paramTimeout n)
          t.node.flt = flt.after s.settings (eventOf .coefUnusable n) ∧
          t.node.ring = { n.ring with
            insertQueue := queueAfter s.settings n.memb.ring (eventOf .coefUnusable n) flt
                (queueAfter s.settings n.memb.ring (eventOf .paramTimeout n) n.flt
                  n.ring.insertQueue) ++
              readers.map (fun e => replyFrame e.requester e.tag e.index .failed []) }))))

/-! ## Trip lines, the loop and the servo (R148, R160 to R163, R172) -/

/-- A trip line's change (R160, R163), the loop found open (R162) and SERVO_FLT (R148). The level is followed
always; a level that does not change is no event (log 21). In STARTING a line only enters its start record;
afterwards its condition sets the flag, and an enabled line whose flag becomes set is a local cause that trips
the stand before a trip, and in TRIPPED and LOCKOUT is a local repeat, or places or drops a further own origin
with its TRIP frame. A loop-open is counted, before a trip records the unknown origin and trips, and in
TRIPPED without an active origin records the unknown one. SERVO_FLT negates
SERVO_EN and trips the stand, and takes TRIPPED to LOCKOUT. -/
def Obligations.InputLinesTripStand : Prop :=
  (∀ (k : Fin 4) (level : Bool) (s : State), s.live →
    let n := s.node
    let l := getFour n.trip.lines k
    let cfg := getFour s.settings.config.lines k
    let pins := { n.pins with lines := setFour n.pins.lines k level }
    let same : Prop := getFour n.pins.lines k = level
    let occurs : Prop := match cfg.sense with
      | .rising | .high => level = true
      | .falling | .low => level = false
    let flagged : TripUnit := { n.trip with lines := setFour n.trip.lines k { l with flag := true } }
    ∃ t, exec (.tripLineChange k level) s = .next t ∧ t.node.pins = pins ∧
      (same → s.keepsBut [.pins, .ring, .flt] t ∧ s.offers [] t) ∧
      (¬ same → n.seq.stand = .starting →
        t.node.trip = { n.trip with
          lines := setFour n.trip.lines k
            (if level then { l with seenRise := true, seenHigh := true }
             else { l with seenFall := true, seenLow := true }) } ∧
        s.keepsBut [.pins, .trip, .ring, .flt] t ∧ s.offers [] t) ∧
      (¬ same → n.seq.stand ≠ .starting → ¬ occurs → s.keepsBut [.pins, .ring, .flt] t ∧ s.offers [] t) ∧
      (¬ same → n.seq.stand ≠ .starting → occurs → cfg.enabled = false ∨ l.flag = true →
        t.node.trip = flagged ∧ s.keepsBut [.pins, .trip, .ring, .flt] t ∧ s.offers [] t) ∧
      (¬ same → occurs → cfg.enabled = true → l.flag = false → n.untripped →
        { n with pins := pins, trip := flagged }.tripsOn s.settings 1 (byte k.val) t.node ∧
        t.settings = s.settings ∧ t.paramMem = s.paramMem ∧ t.pending = s.pending ∧
        (s.roomFor 1 → t.node.flt = n.flt ∧ t.node.ring = { n.ring with
          tripSlot := some (causeFrame s.settings 1 (byte k.val) n)
          insertQueue := n.ring.insertQueue ++ abortReplies n })) ∧
      (¬ same → occurs → cfg.enabled = true → l.flag = false → n.seq.stand.stopped = true →
        n.trip.recorded s.settings.station = true →
        t.node.trip = { flagged with localRepeats := satInc n.trip.localRepeats } ∧
        s.keepsBut [.pins, .trip, .ring, .flt] t ∧ s.offers [] t) ∧
      (¬ same → occurs → cfg.enabled = true → l.flag = false → n.seq.stand.stopped = true →
        n.trip.recorded s.settings.station = false →
        t.node.trip =
          flagged.afterCause s.settings.station (ownOrigin s.settings 1 (byte k.val) n) ∧
        s.keepsBut [.pins, .trip, .ring, .flt] t ∧
        (s.roomFor 0 → t.node.flt = n.flt ∧
          t.node.ring = { n.ring with tripSlot := slotAfter s.settings 1 (byte k.val) n }))) ∧
  (∀ s : State, s.live →
    let n := s.node
    let counted : TripUnit := { n.trip with loopOpens := satInc n.trip.loopOpens }
    ∃ t, exec .loopOpen s = .next t ∧ t.node.pins = { n.pins with loopClosed := false } ∧
      (n.pins.loopClosed = false → s.keepsBut [.pins, .ring, .flt] t ∧ s.offers [] t) ∧
      (n.pins.loopClosed = true →
        n.seq.stand = .starting ∨ n.seq.stand = .lockout ∨ n.trip.active.isSome = true →
        t.node.trip = counted ∧ s.keepsBut [.pins, .trip, .ring, .flt] t ∧ s.offers [] t) ∧
      (n.pins.loopClosed = true → n.untripped →
        n.tripsTo s.settings t.node ∧
        t.node.trip = { counted with
          active := some { station := 0, standIndex := 0, causeKind := 0, detail := 0, number := 0 }
          tripEntries := satInc n.trip.tripEntries } ∧
        t.settings = s.settings ∧ s.offers (abortReplies n) t) ∧
      (n.pins.loopClosed = true → n.seq.stand = .tripped → n.trip.active = none →
        t.node.trip = { counted with
          active := some { station := 0, standIndex := 0, causeKind := 0, detail := 0, number := 0 } } ∧
        s.keepsBut [.pins, .trip, .ring, .flt] t ∧ s.offers [] t)) ∧
  (∀ (asserted : Bool) (s : State), s.live →
    let n := s.node
    let pins := { n.pins with servoFlt := asserted }
    ∃ t, exec (.servoFlt asserted) s = .next t ∧ t.node.pins = pins ∧
      (asserted = false ∨ n.pins.servoFlt = true ∨ n.seq.stand = .starting →
        s.keepsBut [.pins, .ring, .flt] t ∧ s.offers [] t) ∧
      (asserted = true → n.pins.servoFlt = false → n.untripped →
        s.tripsByFault .servoFault { n with pins := pins, gap := { n.gap with servoEn := false } } t) ∧
      (asserted = true → n.pins.servoFlt = false → n.seq.stand = .tripped →
        t.node.seq = { n.seq with stand := .lockout } ∧
        t.node.gap = { n.gap with servoEn := false } ∧
        s.keepsBut [.pins, .seq, .gap, .trip, .ring, .flt] t))

/-- The loop closes (R162, R172, R110): in TRIPPED with no origin recorded, none dropped and the retract
complete, the stand enters QUIET; otherwise only the level follows. With SERVO_FLT asserted the entry raises
SERVO_FAULT (R148), which trips the stand again. -/
def Obligations.LoopClosingEndsTrip : Prop :=
  ∀ s : State, s.live →
    let n := s.node
    let exits : Bool := !n.pins.loopClosed && n.seq.stand = .tripped && n.trip.active.isNone &&
      n.trip.pending.isNone && n.trip.dropped = 0 && n.gap.supervision = .retracted
    ∃ t, exec .loopClosing s = .next t ∧ t.settings = s.settings ∧ t.paramMem = s.paramMem ∧
      t.pending = s.pending ∧ t.node.pins = { n.pins with loopClosed := true } ∧
      (exits = false → s.keepsBut [.pins, .ring, .flt] t ∧ s.offers [] t) ∧
      (exits = true → n.pins.servoFlt = false →
        t.node.seq = { n.seq with stand := .quiet, holds := Holds.empty } ∧
        t.node.gap.base = some s.settings.config.standbyGap ∧
        t.node.gap.reference = s.settings.config.standbyGap ∧ t.node.gap.servoEn = true ∧
        t.node.gap.ff = 0 ∧ t.node.gap.monitor = 0 ∧ t.node.gap.profileTrim = 0 ∧
        t.node.dir = { n.dir with changed := ChangedFlags.clear } ∧
        t.node.track.arrival = [] ∧ t.node.track.expected = none ∧
        s.keepsBut [.pins, .seq, .memb, .dir, .meas, .track, .sched, .gap, .ring, .flt] t ∧
        s.offers [] t) ∧
      (exits = true → n.pins.servoFlt = true → t.node.seq.stand = .tripped ∧
        t.node.trip.active = some (ownOrigin s.settings 2 28 n))
end

