-- ==== Sys2Proof/Laws/State.lean ====
section
/-! SUPPORT. The fields of a state after the plain updates and after the shared operations of the
transmit side: one lemma for each field and operation, true by unfolding. -/

namespace Sys2Proof.Machine

variable (c : Settings) (n : Node) (s : State)

@[simp] theorem withNode_settings (m : Node) : (s.withNode m).settings = s.settings := rfl
@[simp] theorem withNode_paramMem (m : Node) : (s.withNode m).paramMem = s.paramMem := rfl
@[simp] theorem withNode_pending (m : Node) : (s.withNode m).pending = s.pending := rfl
@[simp] theorem withNode_node (m : Node) : (s.withNode m).node = m := rfl
@[simp] theorem withNode_withNode (m k : Node) : (s.withNode m).withNode k = s.withNode k := rfl
@[simp] theorem withNode_self : s.withNode s.node = s := rfl

/-! `withPins` changes pins only. -/

@[simp] theorem withPins_ring (p : Pins) : (n.withPins p).ring = n.ring := rfl
@[simp] theorem withPins_memb (p : Pins) : (n.withPins p).memb = n.memb := rfl
@[simp] theorem withPins_dir (p : Pins) : (n.withPins p).dir = n.dir := rfl
@[simp] theorem withPins_meas (p : Pins) : (n.withPins p).meas = n.meas := rfl
@[simp] theorem withPins_track (p : Pins) : (n.withPins p).track = n.track := rfl
@[simp] theorem withPins_seq (p : Pins) : (n.withPins p).seq = n.seq := rfl
@[simp] theorem withPins_sched (p : Pins) : (n.withPins p).sched = n.sched := rfl
@[simp] theorem withPins_gap (p : Pins) : (n.withPins p).gap = n.gap := rfl
@[simp] theorem withPins_trip (p : Pins) : (n.withPins p).trip = n.trip := rfl
@[simp] theorem withPins_flt (p : Pins) : (n.withPins p).flt = n.flt := rfl
@[simp] theorem withPins_startup (p : Pins) : (n.withPins p).startup = n.startup := rfl
@[simp] theorem withPins_clock (p : Pins) : (n.withPins p).clock = n.clock := rfl
@[simp] theorem withPins_freeIndex (p : Pins) : (n.withPins p).freeIndex = n.freeIndex := rfl

@[simp] theorem withPins_pins (p : Pins) : (n.withPins p).pins = p := rfl

/-! `pump` changes ring only. -/

@[simp] theorem pump_memb : (pump c n).memb = n.memb := rfl
@[simp] theorem pump_dir : (pump c n).dir = n.dir := rfl
@[simp] theorem pump_meas : (pump c n).meas = n.meas := rfl
@[simp] theorem pump_track : (pump c n).track = n.track := rfl
@[simp] theorem pump_seq : (pump c n).seq = n.seq := rfl
@[simp] theorem pump_sched : (pump c n).sched = n.sched := rfl
@[simp] theorem pump_gap : (pump c n).gap = n.gap := rfl
@[simp] theorem pump_trip : (pump c n).trip = n.trip := rfl
@[simp] theorem pump_flt : (pump c n).flt = n.flt := rfl
@[simp] theorem pump_startup : (pump c n).startup = n.startup := rfl
@[simp] theorem pump_pins : (pump c n).pins = n.pins := rfl
@[simp] theorem pump_clock : (pump c n).clock = n.clock := rfl
@[simp] theorem pump_freeIndex : (pump c n).freeIndex = n.freeIndex := rfl

/-! `offer` changes ring, flt only. -/

@[simp] theorem offer_memb (o : OwnFrame) : (offer c o n).memb = n.memb := rfl
@[simp] theorem offer_dir (o : OwnFrame) : (offer c o n).dir = n.dir := rfl
@[simp] theorem offer_meas (o : OwnFrame) : (offer c o n).meas = n.meas := rfl
@[simp] theorem offer_track (o : OwnFrame) : (offer c o n).track = n.track := rfl
@[simp] theorem offer_seq (o : OwnFrame) : (offer c o n).seq = n.seq := rfl
@[simp] theorem offer_sched (o : OwnFrame) : (offer c o n).sched = n.sched := rfl
@[simp] theorem offer_gap (o : OwnFrame) : (offer c o n).gap = n.gap := rfl
@[simp] theorem offer_trip (o : OwnFrame) : (offer c o n).trip = n.trip := rfl
@[simp] theorem offer_startup (o : OwnFrame) : (offer c o n).startup = n.startup := rfl
@[simp] theorem offer_pins (o : OwnFrame) : (offer c o n).pins = n.pins := rfl
@[simp] theorem offer_clock (o : OwnFrame) : (offer c o n).clock = n.clock := rfl
@[simp] theorem offer_freeIndex (o : OwnFrame) : (offer c o n).freeIndex = n.freeIndex := rfl

/-! `settle` changes ring, flt only. -/

@[simp] theorem settle_memb : (settle c n).memb = n.memb := rfl
@[simp] theorem settle_dir : (settle c n).dir = n.dir := rfl
@[simp] theorem settle_meas : (settle c n).meas = n.meas := rfl
@[simp] theorem settle_track : (settle c n).track = n.track := rfl
@[simp] theorem settle_seq : (settle c n).seq = n.seq := rfl
@[simp] theorem settle_sched : (settle c n).sched = n.sched := rfl
@[simp] theorem settle_gap : (settle c n).gap = n.gap := rfl
@[simp] theorem settle_trip : (settle c n).trip = n.trip := rfl
@[simp] theorem settle_startup : (settle c n).startup = n.startup := rfl
@[simp] theorem settle_pins : (settle c n).pins = n.pins := rfl
@[simp] theorem settle_clock : (settle c n).clock = n.clock := rfl
@[simp] theorem settle_freeIndex : (settle c n).freeIndex = n.freeIndex := rfl

/-! `offerNow` changes ring, flt only. -/

@[simp] theorem offerNow_memb (o : OwnFrame) : (offerNow c o n).memb = n.memb := rfl
@[simp] theorem offerNow_dir (o : OwnFrame) : (offerNow c o n).dir = n.dir := rfl
@[simp] theorem offerNow_meas (o : OwnFrame) : (offerNow c o n).meas = n.meas := rfl
@[simp] theorem offerNow_track (o : OwnFrame) : (offerNow c o n).track = n.track := rfl
@[simp] theorem offerNow_seq (o : OwnFrame) : (offerNow c o n).seq = n.seq := rfl
@[simp] theorem offerNow_sched (o : OwnFrame) : (offerNow c o n).sched = n.sched := rfl
@[simp] theorem offerNow_gap (o : OwnFrame) : (offerNow c o n).gap = n.gap := rfl
@[simp] theorem offerNow_trip (o : OwnFrame) : (offerNow c o n).trip = n.trip := rfl
@[simp] theorem offerNow_startup (o : OwnFrame) : (offerNow c o n).startup = n.startup := rfl
@[simp] theorem offerNow_pins (o : OwnFrame) : (offerNow c o n).pins = n.pins := rfl
@[simp] theorem offerNow_clock (o : OwnFrame) : (offerNow c o n).clock = n.clock := rfl
@[simp] theorem offerNow_freeIndex (o : OwnFrame) : (offerNow c o n).freeIndex = n.freeIndex := rfl

/-! `finish` changes ring, flt only. -/

@[simp] theorem finish_memb : (finish c n).memb = n.memb := rfl
@[simp] theorem finish_dir : (finish c n).dir = n.dir := rfl
@[simp] theorem finish_meas : (finish c n).meas = n.meas := rfl
@[simp] theorem finish_track : (finish c n).track = n.track := rfl
@[simp] theorem finish_seq : (finish c n).seq = n.seq := rfl
@[simp] theorem finish_sched : (finish c n).sched = n.sched := rfl
@[simp] theorem finish_gap : (finish c n).gap = n.gap := rfl
@[simp] theorem finish_trip : (finish c n).trip = n.trip := rfl
@[simp] theorem finish_startup : (finish c n).startup = n.startup := rfl
@[simp] theorem finish_pins : (finish c n).pins = n.pins := rfl
@[simp] theorem finish_clock : (finish c n).clock = n.clock := rfl
@[simp] theorem finish_freeIndex : (finish c n).freeIndex = n.freeIndex := rfl

/-! `reply` changes ring, flt only. -/

@[simp] theorem reply_memb (q g : Byte) (i : Nat) (st : Status) (v : List Byte) : (reply c q g i st v n).memb = n.memb := rfl
@[simp] theorem reply_dir (q g : Byte) (i : Nat) (st : Status) (v : List Byte) : (reply c q g i st v n).dir = n.dir := rfl
@[simp] theorem reply_meas (q g : Byte) (i : Nat) (st : Status) (v : List Byte) : (reply c q g i st v n).meas = n.meas := rfl
@[simp] theorem reply_track (q g : Byte) (i : Nat) (st : Status) (v : List Byte) : (reply c q g i st v n).track = n.track := rfl
@[simp] theorem reply_seq (q g : Byte) (i : Nat) (st : Status) (v : List Byte) : (reply c q g i st v n).seq = n.seq := rfl
@[simp] theorem reply_sched (q g : Byte) (i : Nat) (st : Status) (v : List Byte) : (reply c q g i st v n).sched = n.sched := rfl
@[simp] theorem reply_gap (q g : Byte) (i : Nat) (st : Status) (v : List Byte) : (reply c q g i st v n).gap = n.gap := rfl
@[simp] theorem reply_trip (q g : Byte) (i : Nat) (st : Status) (v : List Byte) : (reply c q g i st v n).trip = n.trip := rfl
@[simp] theorem reply_startup (q g : Byte) (i : Nat) (st : Status) (v : List Byte) : (reply c q g i st v n).startup = n.startup := rfl
@[simp] theorem reply_pins (q g : Byte) (i : Nat) (st : Status) (v : List Byte) : (reply c q g i st v n).pins = n.pins := rfl
@[simp] theorem reply_clock (q g : Byte) (i : Nat) (st : Status) (v : List Byte) : (reply c q g i st v n).clock = n.clock := rfl
@[simp] theorem reply_freeIndex (q g : Byte) (i : Nat) (st : Status) (v : List Byte) : (reply c q g i st v n).freeIndex = n.freeIndex := rfl

/-! `answer` changes ring, flt only. -/

@[simp] theorem answer_memb (h : Header) (i : Nat) (st : Status) : (answer c h i st n).memb = n.memb := rfl
@[simp] theorem answer_dir (h : Header) (i : Nat) (st : Status) : (answer c h i st n).dir = n.dir := rfl
@[simp] theorem answer_meas (h : Header) (i : Nat) (st : Status) : (answer c h i st n).meas = n.meas := rfl
@[simp] theorem answer_track (h : Header) (i : Nat) (st : Status) : (answer c h i st n).track = n.track := rfl
@[simp] theorem answer_seq (h : Header) (i : Nat) (st : Status) : (answer c h i st n).seq = n.seq := rfl
@[simp] theorem answer_sched (h : Header) (i : Nat) (st : Status) : (answer c h i st n).sched = n.sched := rfl
@[simp] theorem answer_gap (h : Header) (i : Nat) (st : Status) : (answer c h i st n).gap = n.gap := rfl
@[simp] theorem answer_trip (h : Header) (i : Nat) (st : Status) : (answer c h i st n).trip = n.trip := rfl
@[simp] theorem answer_startup (h : Header) (i : Nat) (st : Status) : (answer c h i st n).startup = n.startup := rfl
@[simp] theorem answer_pins (h : Header) (i : Nat) (st : Status) : (answer c h i st n).pins = n.pins := rfl
@[simp] theorem answer_clock (h : Header) (i : Nat) (st : Status) : (answer c h i st n).clock = n.clock := rfl
@[simp] theorem answer_freeIndex (h : Header) (i : Nat) (st : Status) : (answer c h i st n).freeIndex = n.freeIndex := rfl

/-! `schedAnswer` changes ring, flt only. -/

@[simp] theorem schedAnswer_memb (h : Header) (st : Status) : (schedAnswer c h st n).memb = n.memb := rfl
@[simp] theorem schedAnswer_dir (h : Header) (st : Status) : (schedAnswer c h st n).dir = n.dir := rfl
@[simp] theorem schedAnswer_meas (h : Header) (st : Status) : (schedAnswer c h st n).meas = n.meas := rfl
@[simp] theorem schedAnswer_track (h : Header) (st : Status) : (schedAnswer c h st n).track = n.track := rfl
@[simp] theorem schedAnswer_seq (h : Header) (st : Status) : (schedAnswer c h st n).seq = n.seq := rfl
@[simp] theorem schedAnswer_sched (h : Header) (st : Status) : (schedAnswer c h st n).sched = n.sched := rfl
@[simp] theorem schedAnswer_gap (h : Header) (st : Status) : (schedAnswer c h st n).gap = n.gap := rfl
@[simp] theorem schedAnswer_trip (h : Header) (st : Status) : (schedAnswer c h st n).trip = n.trip := rfl
@[simp] theorem schedAnswer_startup (h : Header) (st : Status) : (schedAnswer c h st n).startup = n.startup := rfl
@[simp] theorem schedAnswer_pins (h : Header) (st : Status) : (schedAnswer c h st n).pins = n.pins := rfl
@[simp] theorem schedAnswer_clock (h : Header) (st : Status) : (schedAnswer c h st n).clock = n.clock := rfl
@[simp] theorem schedAnswer_freeIndex (h : Header) (st : Status) : (schedAnswer c h st n).freeIndex = n.freeIndex := rfl

/-! `reportEvent` changes ring, flt only. -/

@[simp] theorem reportEvent_memb (ev : FaultEvent) : (reportEvent c ev n).memb = n.memb := rfl
@[simp] theorem reportEvent_dir (ev : FaultEvent) : (reportEvent c ev n).dir = n.dir := rfl
@[simp] theorem reportEvent_meas (ev : FaultEvent) : (reportEvent c ev n).meas = n.meas := rfl
@[simp] theorem reportEvent_track (ev : FaultEvent) : (reportEvent c ev n).track = n.track := rfl
@[simp] theorem reportEvent_seq (ev : FaultEvent) : (reportEvent c ev n).seq = n.seq := rfl
@[simp] theorem reportEvent_sched (ev : FaultEvent) : (reportEvent c ev n).sched = n.sched := rfl
@[simp] theorem reportEvent_gap (ev : FaultEvent) : (reportEvent c ev n).gap = n.gap := rfl
@[simp] theorem reportEvent_trip (ev : FaultEvent) : (reportEvent c ev n).trip = n.trip := rfl
@[simp] theorem reportEvent_startup (ev : FaultEvent) : (reportEvent c ev n).startup = n.startup := rfl
@[simp] theorem reportEvent_pins (ev : FaultEvent) : (reportEvent c ev n).pins = n.pins := rfl
@[simp] theorem reportEvent_clock (ev : FaultEvent) : (reportEvent c ev n).clock = n.clock := rfl
@[simp] theorem reportEvent_freeIndex (ev : FaultEvent) : (reportEvent c ev n).freeIndex = n.freeIndex := rfl

/-! `countEvent` changes flt only. -/

@[simp] theorem countEvent_ring (ev : FaultEvent) : (countEvent ev n).ring = n.ring := rfl
@[simp] theorem countEvent_memb (ev : FaultEvent) : (countEvent ev n).memb = n.memb := rfl
@[simp] theorem countEvent_dir (ev : FaultEvent) : (countEvent ev n).dir = n.dir := rfl
@[simp] theorem countEvent_meas (ev : FaultEvent) : (countEvent ev n).meas = n.meas := rfl
@[simp] theorem countEvent_track (ev : FaultEvent) : (countEvent ev n).track = n.track := rfl
@[simp] theorem countEvent_seq (ev : FaultEvent) : (countEvent ev n).seq = n.seq := rfl
@[simp] theorem countEvent_sched (ev : FaultEvent) : (countEvent ev n).sched = n.sched := rfl
@[simp] theorem countEvent_gap (ev : FaultEvent) : (countEvent ev n).gap = n.gap := rfl
@[simp] theorem countEvent_trip (ev : FaultEvent) : (countEvent ev n).trip = n.trip := rfl
@[simp] theorem countEvent_startup (ev : FaultEvent) : (countEvent ev n).startup = n.startup := rfl
@[simp] theorem countEvent_pins (ev : FaultEvent) : (countEvent ev n).pins = n.pins := rfl
@[simp] theorem countEvent_clock (ev : FaultEvent) : (countEvent ev n).clock = n.clock := rfl
@[simp] theorem countEvent_freeIndex (ev : FaultEvent) : (countEvent ev n).freeIndex = n.freeIndex := rfl

/-! `defer` changes flt only. -/

@[simp] theorem defer_ring (k : FaultCode) : (defer k n).ring = n.ring := rfl
@[simp] theorem defer_memb (k : FaultCode) : (defer k n).memb = n.memb := rfl
@[simp] theorem defer_dir (k : FaultCode) : (defer k n).dir = n.dir := rfl
@[simp] theorem defer_meas (k : FaultCode) : (defer k n).meas = n.meas := rfl
@[simp] theorem defer_track (k : FaultCode) : (defer k n).track = n.track := rfl
@[simp] theorem defer_seq (k : FaultCode) : (defer k n).seq = n.seq := rfl
@[simp] theorem defer_sched (k : FaultCode) : (defer k n).sched = n.sched := rfl
@[simp] theorem defer_gap (k : FaultCode) : (defer k n).gap = n.gap := rfl
@[simp] theorem defer_trip (k : FaultCode) : (defer k n).trip = n.trip := rfl
@[simp] theorem defer_startup (k : FaultCode) : (defer k n).startup = n.startup := rfl
@[simp] theorem defer_pins (k : FaultCode) : (defer k n).pins = n.pins := rfl
@[simp] theorem defer_clock (k : FaultCode) : (defer k n).clock = n.clock := rfl
@[simp] theorem defer_freeIndex (k : FaultCode) : (defer k n).freeIndex = n.freeIndex := rfl

/-! `offerTrip` changes ring only. -/

@[simp] theorem offerTrip_memb (o : Origin) : (offerTrip c o n).memb = n.memb := rfl
@[simp] theorem offerTrip_dir (o : Origin) : (offerTrip c o n).dir = n.dir := rfl
@[simp] theorem offerTrip_meas (o : Origin) : (offerTrip c o n).meas = n.meas := rfl
@[simp] theorem offerTrip_track (o : Origin) : (offerTrip c o n).track = n.track := rfl
@[simp] theorem offerTrip_seq (o : Origin) : (offerTrip c o n).seq = n.seq := rfl
@[simp] theorem offerTrip_sched (o : Origin) : (offerTrip c o n).sched = n.sched := rfl
@[simp] theorem offerTrip_gap (o : Origin) : (offerTrip c o n).gap = n.gap := rfl
@[simp] theorem offerTrip_trip (o : Origin) : (offerTrip c o n).trip = n.trip := rfl
@[simp] theorem offerTrip_flt (o : Origin) : (offerTrip c o n).flt = n.flt := rfl
@[simp] theorem offerTrip_startup (o : Origin) : (offerTrip c o n).startup = n.startup := rfl
@[simp] theorem offerTrip_pins (o : Origin) : (offerTrip c o n).pins = n.pins := rfl
@[simp] theorem offerTrip_clock (o : Origin) : (offerTrip c o n).clock = n.clock := rfl
@[simp] theorem offerTrip_freeIndex (o : Origin) : (offerTrip c o n).freeIndex = n.freeIndex := rfl

/-! `placeOwn` changes ring, trip only. -/

@[simp] theorem placeOwn_memb (o : Origin) : (placeOwn c o n).memb = n.memb := rfl
@[simp] theorem placeOwn_dir (o : Origin) : (placeOwn c o n).dir = n.dir := rfl
@[simp] theorem placeOwn_meas (o : Origin) : (placeOwn c o n).meas = n.meas := rfl
@[simp] theorem placeOwn_track (o : Origin) : (placeOwn c o n).track = n.track := rfl
@[simp] theorem placeOwn_seq (o : Origin) : (placeOwn c o n).seq = n.seq := rfl
@[simp] theorem placeOwn_sched (o : Origin) : (placeOwn c o n).sched = n.sched := rfl
@[simp] theorem placeOwn_gap (o : Origin) : (placeOwn c o n).gap = n.gap := rfl
@[simp] theorem placeOwn_flt (o : Origin) : (placeOwn c o n).flt = n.flt := rfl
@[simp] theorem placeOwn_startup (o : Origin) : (placeOwn c o n).startup = n.startup := rfl
@[simp] theorem placeOwn_pins (o : Origin) : (placeOwn c o n).pins = n.pins := rfl
@[simp] theorem placeOwn_clock (o : Origin) : (placeOwn c o n).clock = n.clock := rfl
@[simp] theorem placeOwn_freeIndex (o : Origin) : (placeOwn c o n).freeIndex = n.freeIndex := rfl

/-! `enterTrippedQuietly` changes seq, meas, track, sched, gap, memb, trip only. -/

@[simp] theorem enterTrippedQuietly_ring : (enterTrippedQuietly c n).ring = n.ring := rfl
@[simp] theorem enterTrippedQuietly_dir : (enterTrippedQuietly c n).dir = n.dir := rfl
@[simp] theorem enterTrippedQuietly_flt : (enterTrippedQuietly c n).flt = n.flt := rfl
@[simp] theorem enterTrippedQuietly_startup : (enterTrippedQuietly c n).startup = n.startup := rfl
@[simp] theorem enterTrippedQuietly_pins : (enterTrippedQuietly c n).pins = n.pins := rfl
@[simp] theorem enterTrippedQuietly_clock : (enterTrippedQuietly c n).clock = n.clock := rfl
@[simp] theorem enterTrippedQuietly_freeIndex : (enterTrippedQuietly c n).freeIndex = n.freeIndex := rfl

/-! `enterQuietQuietly` changes seq, memb, dir, meas, track, sched, gap only. -/

@[simp] theorem enterQuietQuietly_ring : (enterQuietQuietly c n).ring = n.ring := rfl
@[simp] theorem enterQuietQuietly_trip : (enterQuietQuietly c n).trip = n.trip := rfl
@[simp] theorem enterQuietQuietly_flt : (enterQuietQuietly c n).flt = n.flt := rfl
@[simp] theorem enterQuietQuietly_startup : (enterQuietQuietly c n).startup = n.startup := rfl
@[simp] theorem enterQuietQuietly_pins : (enterQuietQuietly c n).pins = n.pins := rfl
@[simp] theorem enterQuietQuietly_clock : (enterQuietQuietly c n).clock = n.clock := rfl
@[simp] theorem enterQuietQuietly_freeIndex : (enterQuietQuietly c n).freeIndex = n.freeIndex := rfl

/-! `addEntry` changes dir only. -/

@[simp] theorem addEntry_ring (e : ReqEntry) : (addEntry e n).ring = n.ring := rfl
@[simp] theorem addEntry_memb (e : ReqEntry) : (addEntry e n).memb = n.memb := rfl
@[simp] theorem addEntry_meas (e : ReqEntry) : (addEntry e n).meas = n.meas := rfl
@[simp] theorem addEntry_track (e : ReqEntry) : (addEntry e n).track = n.track := rfl
@[simp] theorem addEntry_seq (e : ReqEntry) : (addEntry e n).seq = n.seq := rfl
@[simp] theorem addEntry_sched (e : ReqEntry) : (addEntry e n).sched = n.sched := rfl
@[simp] theorem addEntry_gap (e : ReqEntry) : (addEntry e n).gap = n.gap := rfl
@[simp] theorem addEntry_trip (e : ReqEntry) : (addEntry e n).trip = n.trip := rfl
@[simp] theorem addEntry_flt (e : ReqEntry) : (addEntry e n).flt = n.flt := rfl
@[simp] theorem addEntry_startup (e : ReqEntry) : (addEntry e n).startup = n.startup := rfl
@[simp] theorem addEntry_pins (e : ReqEntry) : (addEntry e n).pins = n.pins := rfl
@[simp] theorem addEntry_clock (e : ReqEntry) : (addEntry e n).clock = n.clock := rfl
@[simp] theorem addEntry_freeIndex (e : ReqEntry) : (addEntry e n).freeIndex = n.freeIndex := rfl

/-! `putSlot` changes sched only. -/

@[simp] theorem putSlot_ring (k : Fin 4) (x : Slot) : (putSlot k x n).ring = n.ring := rfl
@[simp] theorem putSlot_memb (k : Fin 4) (x : Slot) : (putSlot k x n).memb = n.memb := rfl
@[simp] theorem putSlot_dir (k : Fin 4) (x : Slot) : (putSlot k x n).dir = n.dir := rfl
@[simp] theorem putSlot_meas (k : Fin 4) (x : Slot) : (putSlot k x n).meas = n.meas := rfl
@[simp] theorem putSlot_track (k : Fin 4) (x : Slot) : (putSlot k x n).track = n.track := rfl
@[simp] theorem putSlot_seq (k : Fin 4) (x : Slot) : (putSlot k x n).seq = n.seq := rfl
@[simp] theorem putSlot_gap (k : Fin 4) (x : Slot) : (putSlot k x n).gap = n.gap := rfl
@[simp] theorem putSlot_trip (k : Fin 4) (x : Slot) : (putSlot k x n).trip = n.trip := rfl
@[simp] theorem putSlot_flt (k : Fin 4) (x : Slot) : (putSlot k x n).flt = n.flt := rfl
@[simp] theorem putSlot_startup (k : Fin 4) (x : Slot) : (putSlot k x n).startup = n.startup := rfl
@[simp] theorem putSlot_pins (k : Fin 4) (x : Slot) : (putSlot k x n).pins = n.pins := rfl
@[simp] theorem putSlot_clock (k : Fin 4) (x : Slot) : (putSlot k x n).clock = n.clock := rfl
@[simp] theorem putSlot_freeIndex (k : Fin 4) (x : Slot) : (putSlot k x n).freeIndex = n.freeIndex := rfl

/-! `setBase` changes gap only. -/

@[simp] theorem setBase_ring (b : Nat) : (setBase b n).ring = n.ring := rfl
@[simp] theorem setBase_memb (b : Nat) : (setBase b n).memb = n.memb := rfl
@[simp] theorem setBase_dir (b : Nat) : (setBase b n).dir = n.dir := rfl
@[simp] theorem setBase_meas (b : Nat) : (setBase b n).meas = n.meas := rfl
@[simp] theorem setBase_track (b : Nat) : (setBase b n).track = n.track := rfl
@[simp] theorem setBase_seq (b : Nat) : (setBase b n).seq = n.seq := rfl
@[simp] theorem setBase_sched (b : Nat) : (setBase b n).sched = n.sched := rfl
@[simp] theorem setBase_trip (b : Nat) : (setBase b n).trip = n.trip := rfl
@[simp] theorem setBase_flt (b : Nat) : (setBase b n).flt = n.flt := rfl
@[simp] theorem setBase_startup (b : Nat) : (setBase b n).startup = n.startup := rfl
@[simp] theorem setBase_pins (b : Nat) : (setBase b n).pins = n.pins := rfl
@[simp] theorem setBase_clock (b : Nat) : (setBase b n).clock = n.clock := rfl
@[simp] theorem setBase_freeIndex (b : Nat) : (setBase b n).freeIndex = n.freeIndex := rfl

/-! `setRing` changes ring, memb only. -/

@[simp] theorem setRing_dir (r : RingState) : (setRing r n).dir = n.dir := rfl
@[simp] theorem setRing_meas (r : RingState) : (setRing r n).meas = n.meas := rfl
@[simp] theorem setRing_track (r : RingState) : (setRing r n).track = n.track := rfl
@[simp] theorem setRing_seq (r : RingState) : (setRing r n).seq = n.seq := rfl
@[simp] theorem setRing_sched (r : RingState) : (setRing r n).sched = n.sched := rfl
@[simp] theorem setRing_gap (r : RingState) : (setRing r n).gap = n.gap := rfl
@[simp] theorem setRing_trip (r : RingState) : (setRing r n).trip = n.trip := rfl
@[simp] theorem setRing_flt (r : RingState) : (setRing r n).flt = n.flt := rfl
@[simp] theorem setRing_startup (r : RingState) : (setRing r n).startup = n.startup := rfl
@[simp] theorem setRing_pins (r : RingState) : (setRing r n).pins = n.pins := rfl
@[simp] theorem setRing_clock (r : RingState) : (setRing r n).clock = n.clock := rfl
@[simp] theorem setRing_freeIndex (r : RingState) : (setRing r n).freeIndex = n.freeIndex := rfl

/-! `offerClaim` changes ring, flt only. -/

@[simp] theorem offerClaim_memb : (offerClaim c n).memb = n.memb := rfl
@[simp] theorem offerClaim_dir : (offerClaim c n).dir = n.dir := rfl
@[simp] theorem offerClaim_meas : (offerClaim c n).meas = n.meas := rfl
@[simp] theorem offerClaim_track : (offerClaim c n).track = n.track := rfl
@[simp] theorem offerClaim_seq : (offerClaim c n).seq = n.seq := rfl
@[simp] theorem offerClaim_sched : (offerClaim c n).sched = n.sched := rfl
@[simp] theorem offerClaim_gap : (offerClaim c n).gap = n.gap := rfl
@[simp] theorem offerClaim_trip : (offerClaim c n).trip = n.trip := rfl
@[simp] theorem offerClaim_startup : (offerClaim c n).startup = n.startup := rfl
@[simp] theorem offerClaim_pins : (offerClaim c n).pins = n.pins := rfl
@[simp] theorem offerClaim_clock : (offerClaim c n).clock = n.clock := rfl
@[simp] theorem offerClaim_freeIndex : (offerClaim c n).freeIndex = n.freeIndex := rfl

/-! `endInvalid` changes startup only. -/

@[simp] theorem endInvalid_ring : (endInvalid n).ring = n.ring := rfl
@[simp] theorem endInvalid_memb : (endInvalid n).memb = n.memb := rfl
@[simp] theorem endInvalid_dir : (endInvalid n).dir = n.dir := rfl
@[simp] theorem endInvalid_meas : (endInvalid n).meas = n.meas := rfl
@[simp] theorem endInvalid_track : (endInvalid n).track = n.track := rfl
@[simp] theorem endInvalid_seq : (endInvalid n).seq = n.seq := rfl
@[simp] theorem endInvalid_sched : (endInvalid n).sched = n.sched := rfl
@[simp] theorem endInvalid_gap : (endInvalid n).gap = n.gap := rfl
@[simp] theorem endInvalid_trip : (endInvalid n).trip = n.trip := rfl
@[simp] theorem endInvalid_flt : (endInvalid n).flt = n.flt := rfl
@[simp] theorem endInvalid_pins : (endInvalid n).pins = n.pins := rfl
@[simp] theorem endInvalid_clock : (endInvalid n).clock = n.clock := rfl
@[simp] theorem endInvalid_freeIndex : (endInvalid n).freeIndex = n.freeIndex := rfl
@[simp] theorem endInvalid_phase : (endInvalid n).startup.phase = .invalid := rfl
@[simp] theorem endInvalid_imageRead : (endInvalid n).startup.imageRead = none := rfl

/-! `Meas.accepted` changes the load state, the band and the tilt mark only. -/

variable (k : NodeConfig) (m : Meas)

@[simp] theorem accepted_fifo : (m.accepted k).fifo = m.fifo := rfl
@[simp] theorem accepted_forceOS : (m.accepted k).forceOS = m.forceOS := rfl
@[simp] theorem accepted_forceDS : (m.accepted k).forceDS = m.forceDS := rfl
@[simp] theorem accepted_posOS : (m.accepted k).posOS = m.posOS := rfl
@[simp] theorem accepted_posDS : (m.accepted k).posDS = m.posDS := rfl
@[simp] theorem accepted_overload : (m.accepted k).overload = m.overload := rfl
@[simp] theorem accepted_reversal : (m.accepted k).reversal = m.reversal := rfl
@[simp] theorem accepted_loadOn : (m.accepted k).loadOn = decide (k.loadOn ≤ m.total) := rfl
@[simp] theorem accepted_band :
    (m.accepted k).band = if m.forceTaken then bandOf k.bandEdges m.total else m.band := rfl
@[simp] theorem accepted_forceTaken : (m.accepted k).forceTaken = false := rfl
@[simp] theorem accepted_tiltMark : (m.accepted k).tiltMark = decide (k.tiltLimit < m.tilt.natAbs) := rfl

end Sys2Proof.Machine
end

