-- ==== Sys2Proof/Laws/Transmit.lean ====
section
/-! SUPPORT. The transmit side: what the arbiter, offers and the handling of waiting events do (R13,
R14, R17, R179). -/

namespace Sys2Proof.Machine

variable (c : Settings) (n : Node) (s : State)

/-! ## The arbiter -/

/-- While a frame is being sent the arbiter selects nothing. -/
theorem RingPort.pump_busy (p : RingPort) (b : Byte) (m : RingState) (h : p.sending.isSome = true) :
    p.pump b m = p := by
  unfold RingPort.pump
  cases hs : p.sending with
  | none => simp [hs] at h
  | some x => rfl

theorem pump_busy (h : n.ring.sending.isSome = true) : pump c n = n := by
  unfold pump; rw [RingPort.pump_busy _ _ _ h]

/-- After a selection nothing more can be selected: the arbiter serves a free link at once (R17). -/
theorem RingPort.pump_idem (p : RingPort) (b : Byte) (m : RingState) :
    (p.pump b m).pump b m = p.pump b m := by
  by_cases h : (p.pump b m).sending.isSome = true
  · exact RingPort.pump_busy _ _ _ h
  · have key : p.pump b m = p := by
      revert h
      unfold RingPort.pump RingPort.select RingPort.selectQueued RingPort.sendOwn RingPort.sendPass
      repeat' split
      all_goals simp_all
    rw [key]; exact key

/-! ## Offers -/

/-- An offer to a queue with room that the ring state admits joins the tail. -/
theorem RingPort.place_room (p : RingPort) (m : RingState) (o : OwnFrame)
    (hr : p.insertQueue.length < 16) (ha : m.admits o.kind = true) (hf : o.fatal = false) :
    p.place m o = ({ p with insertQueue := p.insertQueue ++ [o] }, .accepted) := by
  simp [RingPort.place, hr, ha, hf]

/-- With the link busy and room in the queue, an offered frame joins the tail and nothing else
changes. -/
theorem offer_room (o : OwnFrame) (hb : n.ring.sending.isSome = true)
    (hr : n.ring.insertQueue.length < 16) (ha : n.memb.ring.admits o.kind = true)
    (hf : o.fatal = false) :
    offer c o n = { n with ring := { n.ring with insertQueue := n.ring.insertQueue ++ [o] } } := by
  unfold offer Rep.offer
  simp only [ctxOf, RingPort.place_room _ _ _ hr ha hf]
  rw [RingPort.pump_busy _ _ _ (by simpa using hb)]

/-! ## Waiting events -/

theorem Rep.settle_none (x : Ctx) (r : Rep) (h : r.flt.raised = []) : Rep.settle x r = r := by
  obtain ⟨p, f⟩ := r
  obtain ⟨a, b, d, e, g, k, w⟩ := f
  simp only at h
  subst h
  rfl

/-- Where no event waits there is nothing to handle. -/
theorem settle_none (h : n.flt.raised = []) : settle c n = n := by
  unfold settle; rw [Rep.settle_none _ _ h]

/-- Afterwards no event waits. -/
theorem settle_raised : (settle c n).flt.raised = [] := rfl

@[simp] theorem finish_raised : (finish c n).flt.raised = [] := rfl

theorem finish_quiet (hb : n.ring.sending.isSome = true) (h : n.flt.raised = []) :
    finish c n = n := by
  unfold finish; rw [settle_none c n h, pump_busy c n hb]

/-- The end of a command leaves a served link. -/
theorem finish_served :
    (finish c n).ring.pump (byte c.station) (finish c n).memb.ring = (finish c n).ring := by
  unfold finish pump
  exact RingPort.pump_idem _ _ _

theorem offerNow_room (o : OwnFrame) (hb : n.ring.sending.isSome = true) (hw : n.flt.raised = [])
    (hr : n.ring.insertQueue.length < 16) (ha : n.memb.ring.admits o.kind = true)
    (hf : o.fatal = false) :
    offerNow c o n = { n with ring := { n.ring with insertQueue := n.ring.insertQueue ++ [o] } } := by
  unfold offerNow
  rw [offer_room c n o hb hr ha hf, settle_none _ _ (by exact hw)]

/-! ## Commands -/

theorem State.act_live (f : Settings → Node → Node) (h : s.live) :
    s.act f = .next (s.withNode (finish s.settings (f s.settings s.node))) := by
  have : s.inReset = false := by simpa [State.inReset, State.live] using h
  simp [State.act, this]

theorem State.act_reset (f : Settings → Node → Node) (h : ¬ s.live) : s.act f = .next s := by
  have : s.inReset = true := by simpa [State.inReset, State.live] using h
  simp [State.act, this]

theorem State.input_live (p : Pins) (f : Settings → Pins → Node → Node) (h : s.live) :
    s.input p f =
      .next (s.withNode (finish s.settings (f s.settings s.node.pins (s.node.withPins p)))) := by
  have : s.inReset = false := by simpa [State.inReset, State.live] using h
  simp [State.input, this]

theorem State.input_reset (p : Pins) (f : Settings → Pins → Node → Node) (h : ¬ s.live) :
    s.input p f = .next (s.withNode (s.node.withPins p)) := by
  have : s.inReset = true := by simpa [State.inReset, State.live] using h
  simp [State.input, this]

end Sys2Proof.Machine
end

