-- ==== Sys2Proof/Laws/Raise.lean ====
section
/-! SUPPORT. Fault events (R179 to R184): what a CORRECTABLE one leaves unchanged, what it does to the
Fault Unit and the insert queue where there is room, and what a FATAL one makes of the Trip Unit. -/

namespace Sys2Proof.Machine

variable (c : Settings) (n : Node) (s : State)

/-- A CORRECTABLE event is not routed. -/
theorem routeEvent_correctable (ev : FaultEvent) (h : ev.cls = .correctable) :
    routeEvent c ev n = n := by
  unfold routeEvent; rw [h]

/-- A CORRECTABLE fault is counted, recorded and reported. -/
theorem raise_eq_of_correctable (code : FaultCode) (h : code.cls n.seq.stand = .correctable) :
    raise c code n =
      settle c (reportEvent c (eventOf code n) (countEvent (eventOf code n) (settle c n))) := by
  unfold raise handleEvent; rw [routeEvent_correctable]; exact h

theorem raise_memb (code : FaultCode) (h : code.cls n.seq.stand = .correctable) :
    (raise c code n).memb = n.memb := by
  rw [raise_eq_of_correctable c n code h]; rfl

theorem raise_dir (code : FaultCode) (h : code.cls n.seq.stand = .correctable) :
    (raise c code n).dir = n.dir := by
  rw [raise_eq_of_correctable c n code h]; rfl

theorem raise_meas (code : FaultCode) (h : code.cls n.seq.stand = .correctable) :
    (raise c code n).meas = n.meas := by
  rw [raise_eq_of_correctable c n code h]; rfl

theorem raise_track (code : FaultCode) (h : code.cls n.seq.stand = .correctable) :
    (raise c code n).track = n.track := by
  rw [raise_eq_of_correctable c n code h]; rfl

theorem raise_seq (code : FaultCode) (h : code.cls n.seq.stand = .correctable) :
    (raise c code n).seq = n.seq := by
  rw [raise_eq_of_correctable c n code h]; rfl

theorem raise_sched (code : FaultCode) (h : code.cls n.seq.stand = .correctable) :
    (raise c code n).sched = n.sched := by
  rw [raise_eq_of_correctable c n code h]; rfl

theorem raise_gap (code : FaultCode) (h : code.cls n.seq.stand = .correctable) :
    (raise c code n).gap = n.gap := by
  rw [raise_eq_of_correctable c n code h]; rfl

theorem raise_trip (code : FaultCode) (h : code.cls n.seq.stand = .correctable) :
    (raise c code n).trip = n.trip := by
  rw [raise_eq_of_correctable c n code h]; rfl

theorem raise_startup (code : FaultCode) (h : code.cls n.seq.stand = .correctable) :
    (raise c code n).startup = n.startup := by
  rw [raise_eq_of_correctable c n code h]; rfl

theorem raise_pins (code : FaultCode) (h : code.cls n.seq.stand = .correctable) :
    (raise c code n).pins = n.pins := by
  rw [raise_eq_of_correctable c n code h]; rfl

theorem raise_clock (code : FaultCode) (h : code.cls n.seq.stand = .correctable) :
    (raise c code n).clock = n.clock := by
  rw [raise_eq_of_correctable c n code h]; rfl

theorem raise_freeIndex (code : FaultCode) (h : code.cls n.seq.stand = .correctable) :
    (raise c code n).freeIndex = n.freeIndex := by
  rw [raise_eq_of_correctable c n code h]; rfl

/-- The class of a code that is CORRECTABLE in every stand state. -/
theorem cls_correctable (code : FaultCode) (st : StandState)
    (h : code = .frameCheck ∨ code = .frameForm ∨ code = .orphanRemoved ∨ code = .passOverrun ∨
      code = .ownFrameLost ∨ code = .insertFull ∨ code = .claimObjected ∨ code = .sampleOverrun ∨
      code = .gaugeWithdrawn ∨ code = .trackGap ∨ code = .arrivalFull ∨ code = .markGap ∨
      code = .exitTrackFull ∨ code = .schedRefused ∨ code = .demandClamped ∨ code = .coefUnusable ∨
      code = .paramTimeout ∨ code = .lateApplication) : code.cls st = .correctable := by
  rcases h with h | h | h | h | h | h | h | h | h | h | h | h | h | h | h | h | h | h <;> subst h <;> rfl

/-! ## With room in the insert queue -/

/-- An offer to a queue with room: it joins at its place where the ring state admits it, and is refused
without a fault where not. -/
theorem Rep.offer_room (x : Ctx) (o : OwnFrame) (r : Rep) (hb : r.ring.sending.isSome = true)
    (hq : r.ring.insertQueue.length < 16) :
    Rep.offer x o r = { r with ring := { r.ring with insertQueue :=
      (if x.ring.admits o.kind = true then
        (if o.fatal = true then o :: r.ring.insertQueue else r.ring.insertQueue ++ [o])
      else r.ring.insertQueue) } } := by
  unfold Rep.offer RingPort.place
  by_cases ha : x.ring.admits o.kind = true
  · simp only [ha, hq, Bool.not_true, Bool.false_eq_true, if_false, if_true]
    rw [RingPort.pump_busy _ _ _ (by simpa using hb)]
  · have ha' : x.ring.admits o.kind = false := by simpa using ha
    simp [ha']

/-- Step 4 for one event that has been counted, given room. -/
theorem Rep.report_room (c : Settings) (x : Ctx) (ev : FaultEvent) (f : FaultUnit) (p : RingPort)
    (hl : x.level = c.config.reportLevel) (hd : x.budget = c.config.reportBudget)
    (hr : f.raised = []) (he : ev.report = true) (hb : p.sending.isSome = true)
    (hq : p.insertQueue.length < 16) :
    Rep.report x ev ⟨p, f.count ev⟩ =
      ⟨{ p with insertQueue := queueAfter c x.ring ev f p.insertQueue }, f.after c ev⟩ := by
  obtain ⟨cs, fi, bc, be, off, sup, ra⟩ := f
  simp only at hr
  subst hr
  unfold Rep.report
  rw [hl, hd, he]
  by_cases hs : ev.stand = .starting
  · cases fi <;>
    simp [hs, queueAfter, offersFault, FaultUnit.after, FaultUnit.count, suppressesFault]
  by_cases ha : levelAdmits c.config.reportLevel ev.cls = true
  · by_cases hbud : c.config.reportBudget = 0 ∨ bc < c.config.reportBudget
    · have ho : offersFault c ev ⟨cs, fi, bc, be, off, sup, []⟩ = true := by
        simp [offersFault, hs, ha, hbud]
      have hsup : suppressesFault c ev ⟨cs, fi, bc, be, off, sup, []⟩ = false := by
        simp [suppressesFault]; omega
      rw [if_neg (by simp [hs, ha]), if_pos (by
        rcases hbud with h | h <;> simp only [FaultUnit.count, h, decide_true, Bool.or_true, Bool.true_or])]
      rw [Rep.offer_room _ _ _ (by simpa using hb) (by simpa using hq)]
      cases fi <;> simp [queueAfter, ho, FaultUnit.after, hsup, FaultUnit.counter, faultFrame,
        FaultUnit.count]
    · have ho : offersFault c ev ⟨cs, fi, bc, be, off, sup, []⟩ = false := by
        simp [offersFault, hs, ha]; omega
      have hsup : suppressesFault c ev ⟨cs, fi, bc, be, off, sup, []⟩ = true := by
        simp [suppressesFault, hs, ha]; omega
      rw [if_neg (by simp [hs, ha]), if_neg (by
        intro h; apply hbud; rcases Bool.or_eq_true _ _ ▸ h with h | h
        · exact Or.inl (of_decide_eq_true h)
        · exact Or.inr (of_decide_eq_true h))]
      cases fi <;> simp [FaultUnit.count, queueAfter, ho, FaultUnit.after, hsup]
  · have ha' : levelAdmits c.config.reportLevel ev.cls = false := by simpa using ha
    cases fi <;>
    simp [hs, ha', queueAfter, offersFault, FaultUnit.after, FaultUnit.count, suppressesFault]

/-- A CORRECTABLE fault, given room, is counted, recorded and reported, and nothing else changes. -/
theorem raise_room (code : FaultCode) (h : code.cls n.seq.stand = .correctable)
    (hb : n.ring.sending.isSome = true) (hr : n.flt.raised = []) (hq : n.ring.insertQueue.length < 16) :
    raise c code n = { n with
      flt := n.flt.after c (eventOf code n)
      ring := { n.ring with
        insertQueue := queueAfter c n.memb.ring (eventOf code n) n.flt n.ring.insertQueue } } := by
  rw [raise_eq_of_correctable c n code h, settle_none c n hr]
  unfold reportEvent
  simp only [countEvent]
  rw [Rep.report_room c _ (eventOf code n) n.flt n.ring rfl rfl hr rfl hb hq]
  rw [settle_none]
  · rfl
  · rfl

end Sys2Proof.Machine
end

