-- ==== Sys2Proof/Laws/Frames.lean ====
section
/-! SUPPORT. What the frame and the transmit side of a command come to: the lemmas that a statement about
a row is proved from. -/

namespace Sys2Proof.Machine

variable {s : State} {m : Node} {bs : List Block}

/-! ## Frames -/

theorem Node.keepsBut_refl (n : Node) : n.keepsBut bs n := by
  intro b _; cases b <;> rfl

/-- The end of a command keeps what its effect keeps, the Ring Port and the Fault Unit apart. -/
theorem keepsBut_finish (hk : s.node.keepsBut bs m) (hr : Block.ring ∈ bs) (hf : Block.flt ∈ bs) :
    s.keepsBut bs (s.withNode (finish s.settings m)) := by
  refine ⟨rfl, rfl, rfl, ?_⟩
  intro b hb
  have h := hk b hb
  cases b <;> first | exact h | exact absurd hr hb | exact absurd hf hb

/-- Likewise where an answer is offered last. -/
theorem keepsBut_answer {h : Header} {i : Nat} {st : Status} (hk : s.node.keepsBut bs m)
    (hr : Block.ring ∈ bs) (hf : Block.flt ∈ bs) :
    s.keepsBut bs (s.withNode (finish s.settings (answer s.settings h i st m))) := by
  apply keepsBut_finish _ hr hf
  intro b hb
  have hx := hk b hb
  cases b <;> first | exact hx | exact absurd hr hb | exact absurd hf hb

/-- Likewise where an answer and an ECHO are offered last, but for the changed flags. -/
theorem keepsBut_answerEchoed {h : Header} {i : Nat} {v : List Byte} (hk : s.node.keepsBut bs m)
    (hr : Block.ring ∈ bs) (hf : Block.flt ∈ bs) (hd : Block.dir ∈ bs) :
    s.keepsBut bs (s.withNode (finish s.settings (answerEchoed s.settings h i v m))) := by
  apply keepsBut_finish _ hr hf
  intro b hb
  have hx := hk b hb
  unfold answerEchoed echo
  split <;>
  cases b <;> first | exact hx | exact absurd hr hb | exact absurd hf hb | exact absurd hd hb

/-- Likewise where a CORRECTABLE fault is raised last. -/
theorem keepsBut_raise {code : FaultCode} (hk : s.node.keepsBut bs m) (hr : Block.ring ∈ bs)
    (hf : Block.flt ∈ bs) (hc : code.cls m.seq.stand = .correctable) :
    s.keepsBut bs (s.withNode (finish s.settings (raise s.settings code m))) := by
  apply keepsBut_finish _ hr hf
  rw [raise_eq_of_correctable _ _ _ hc]
  intro b hb
  have hx := hk b hb
  cases b <;> first | exact hx | exact absurd hr hb | exact absurd hf hb

/-! ## The transmit side -/

/-- Where the effect touches neither the Ring Port nor the Fault Unit, nothing is offered. -/
theorem offers_nil (hr : m.ring = s.node.ring) (hf : m.flt = s.node.flt) :
    s.offers [] (s.withNode (finish s.settings m)) := by
  intro ⟨hb, hw, _⟩
  rw [finish_quiet _ _ (by rw [hr]; exact hb) (by rw [hf]; exact hw)]
  simp [hr, hf]

/-- Given room, the end of a command changes nothing. -/
theorem finish_room {k : Nat} (h : s.roomFor k) (hr : m.ring.sending = s.node.ring.sending)
    (hf : m.flt.raised = []) : finish s.settings m = m :=
  finish_quiet _ _ (by rw [hr]; exact h.1) hf

/-- A ring state in which frames are delivered admits every kind. -/
theorem admits_of_hands {h : Header} (hh : s.hands h) (k : FrameKind) :
    s.node.memb.ring.admits k = true := by
  have hd : s.node.memb.ring.delivers = true := by
    unfold State.hands handed at hh; simp at hh; exact hh.1.2
  cases hr : s.node.memb.ring <;> simp_all [RingState.delivers, RingState.admits]

/-- An answer, given room. -/
theorem answer_room (c : Settings) (h : Header) (i : Nat) (st : Status) (n : Node)
    (hb : n.ring.sending.isSome = true) (hw : n.flt.raised = [])
    (hq : n.ring.insertQueue.length < 16) (ha : n.memb.ring.admits .reply = true) :
    answer c h i st n = { n with ring := { n.ring with
      insertQueue := n.ring.insertQueue ++ [answerFrame h (byte i) st.code] } } := by
  unfold answer reply
  rw [offerNow_room _ _ _ hb hw hq ha rfl]
  rfl

/-- An answer offered last, to a delivered request. -/
theorem offers_answer {h : Header} {i : Nat} {st : Status} {fs : List OwnFrame} (hh : s.hands h)
    (hr : m.ring = s.node.ring) (hf : m.flt = s.node.flt) (hm : m.memb.ring = s.node.memb.ring)
    (hfs : fs = [answerFrame h (byte i) st.code]) :
    s.offers fs (s.withNode (finish s.settings (answer s.settings h i st m))) := by
  subst hfs
  intro hroom
  have ⟨hb, hw, hq⟩ := hroom
  simp only [List.length_cons, List.length_nil] at hq
  rw [answer_room _ _ _ _ _ (by rw [hr]; exact hb) (by rw [hf]; exact hw) (by rw [hr]; omega)
    (by rw [hm]; exact admits_of_hands hh _)]
  rw [finish_room hroom (by simp [hr]) (by simp [hf, hw])]
  simp [hr, hf]

/-- An answer and, where the flag is clear, an ECHO offered last. -/
theorem offers_answerEchoed {h : Header} {i : Nat} {v : List Byte} {fs : List OwnFrame}
    (hh : s.hands h) (hr : m.ring = s.node.ring) (hf : m.flt = s.node.flt)
    (hm : m.memb.ring = s.node.memb.ring)
    (hfs : fs = answerFrame h (byte i) 0 :: echoOffered (m.dir.changed.get i) (byte i) v) :
    s.offers fs (s.withNode (finish s.settings (answerEchoed s.settings h i v m))) := by
  subst hfs
  intro hroom
  have ⟨hb, hw, hq⟩ := hroom
  unfold answerEchoed echo
  by_cases hg : m.dir.changed.get i = true
  · simp only [answer_dir, hg, if_true]
    rw [answer_room _ _ _ _ _ (by rw [hr]; exact hb) (by rw [hf]; exact hw)
      (by rw [hr]; simp [echoOffered, hg] at hq; omega) (by rw [hm]; exact admits_of_hands hh _)]
    rw [finish_room hroom (by simp [hr]) (by simp [hf, hw])]
    simp [hr, hf, echoOffered, Status.code]
  · have hg' : m.dir.changed.get i = false := by simpa using hg
    simp only [answer_dir, hg', Bool.false_eq_true, if_false]
    rw [answer_room _ _ _ _ _ (by rw [hr]; exact hb) (by rw [hf]; exact hw)
      (by rw [hr]; simp [echoOffered, hg'] at hq; omega) (by rw [hm]; exact admits_of_hands hh _)]
    rw [offerNow_room _ _ _ (by simp [hr, hb]) (by simp [hf, hw])
      (by simp [hr]; simp [echoOffered, hg'] at hq; omega) (by simp [hm]; exact admits_of_hands hh _) rfl]
    rw [finish_room hroom (by simp [hr]) (by simp [hf, hw])]
    simp [hr, hf, echoOffered, Status.code, echoFrame]
    rfl

/-- The changed flags after an answer and an ECHO. -/
theorem answerEchoed_dir (c : Settings) (h : Header) (i : Nat) (v : List Byte) (n : Node)
    (hi : n.dir.changed.get i = true → n.dir.changed.set i = n.dir.changed) :
    (answerEchoed c h i v n).dir = { n.dir with changed := n.dir.changed.set i } := by
  unfold answerEchoed echo
  by_cases hg : n.dir.changed.get i = true
  · simp [hg, hi hg]
  · simp [hg]

/-- A CORRECTABLE fault raised last, at a node that differs from the first in neither the ring state, the
stand state nor the segment number. -/
theorem reports_raise {code : FaultCode} (hc : code.cls s.node.seq.stand = .correctable)
    (hr : m.ring = s.node.ring) (hf : m.flt = s.node.flt) (hm : m.memb.ring = s.node.memb.ring)
    (hs : m.seq.stand = s.node.seq.stand) (ht : m.track.current = s.node.track.current) :
    s.reports code s.node (s.withNode (finish s.settings (raise s.settings code m))) := by
  intro hroom
  have ⟨hb, hw, hq⟩ := hroom
  have he : eventOf code m = eventOf code s.node := by simp [eventOf, hs, ht]
  rw [raise_room _ _ _ (by rw [hs]; exact hc) (by rw [hr]; exact hb) (by rw [hf]; exact hw)
    (by rw [hr]; omega)]
  rw [finish_room hroom (by simp [hr]) rfl]
  simp [hr, hf, he, hm]

/-! ## Delivered rows -/

theorem half_bytes (w : Half) : half (w.extractLsb' 8 8) (w.extractLsb' 0 8) = w := by
  unfold half
  apply BitVec.eq_of_getLsbD_eq
  intro i hi
  simp only [BitVec.getLsbD_append, BitVec.getLsbD_extractLsb']
  by_cases h : i < 8
  · simp [h]
  · have h8 : i - 8 < 8 := by omega
    have e : 8 + (i - 8) = i := by omega
    simp [h, h8, e]

/-- A write that admission takes goes to its owner. -/
theorem writeArrives_admitted {h : Header} {i : Byte} {v : List Byte} {k : Nat} (hi : i.toNat = k)
    (ha : s.admitsWrite h k) (hv : v.length = valueSize k) :
    writeArrives s.settings h i v s.node = ownerWrite s.settings h k v s.node := by
  subst hi
  unfold writeArrives writeRequest
  have h1 := ha.1
  unfold State.hands at h1
  rw [h1, hv, ha.2]; rfl

variable (h : Header)

theorem exec_standCommandPreset (hl : s.live) (ha : s.admitsWrite h 2) :
    exec (.standCommandPreset h) s =
      .next (s.withNode (finish s.settings (commandPreset s.settings h s.node))) := by
  simp only [exec, execStandCommandPreset]
  rw [State.act_live _ _ hl, writeArrives_admitted rfl ha rfl]; rfl

theorem exec_standCommandQuiet (hl : s.live) (ha : s.admitsWrite h 2) :
    exec (.standCommandQuiet h) s =
      .next (s.withNode (finish s.settings (commandQuiet s.settings h s.node))) := by
  simp only [exec, execStandCommandQuiet]
  rw [State.act_live _ _ hl, writeArrives_admitted rfl ha rfl]; rfl

theorem exec_nextSchedule (id : Byte) (hl : s.live) (ha : s.admitsWrite h 4) :
    exec (.nextSchedule h id) s =
      .next (s.withNode (finish s.settings (writeNextSchedule s.settings h id s.node))) := by
  simp only [exec, execNextSchedule]
  rw [State.act_live _ _ hl, writeArrives_admitted rfl ha rfl]; rfl

theorem exec_slotFree (id : Byte) (hl : s.live) (ha : s.admitsWrite h 6) :
    exec (.slotFree h id) s =
      .next (s.withNode (finish s.settings (writeSlotFree s.settings h id s.node))) := by
  simp only [exec, execSlotFree]
  rw [State.act_live _ _ hl, writeArrives_admitted rfl ha rfl]; rfl

theorem exec_gapTrim (trim : Half) (hl : s.live) (ha : s.admitsWrite h 7) :
    exec (.gapTrim h trim) s =
      .next (s.withNode (finish s.settings (writeGapTrim s.settings h trim s.node))) := by
  simp only [exec, execGapTrim]
  rw [State.act_live _ _ hl, writeArrives_admitted rfl ha rfl]
  show Host.Outcome.next (s.withNode (finish s.settings (writeGapTrim s.settings h
    (half (trim.extractLsb' 8 8) (trim.extractLsb' 0 8)) s.node))) = _
  rw [half_bytes]

theorem exec_ffEnable (v : Byte) (hl : s.live) (ha : s.admitsWrite h 8) :
    exec (.ffEnable h v) s =
      .next (s.withNode (finish s.settings (writeFfEnable s.settings h v s.node))) := by
  simp only [exec, execFfEnable]
  rw [State.act_live _ _ hl, writeArrives_admitted rfl ha rfl]; rfl

theorem exec_monitorEnable (v : Byte) (hl : s.live) (ha : s.admitsWrite h 9) :
    exec (.monitorEnable h v) s =
      .next (s.withNode (finish s.settings (writeMonitorEnable s.settings h v s.node))) := by
  simp only [exec, execMonitorEnable]
  rw [State.act_live _ _ hl, writeArrives_admitted rfl ha rfl]; rfl

theorem exec_coefEntryWrite (p b : Byte) (f k : Half) (hl : s.live) (ha : s.admitsWrite h 13) :
    exec (.coefEntryWrite h p b f k) s =
      .next (s.withNode (finish s.settings (writeCoef s.settings h (coefOfFields p b f k) s.node))) := by
  simp only [exec, execCoefEntryWrite]
  rw [State.act_live _ _ hl, writeArrives_admitted rfl ha rfl]
  show Host.Outcome.next (s.withNode (finish s.settings (writeCoef s.settings h
    (coefOfFields p b (half (f.extractLsb' 8 8) (f.extractLsb' 0 8))
      (half (k.extractLsb' 8 8) (k.extractLsb' 0 8))) s.node))) = _
  rw [half_bytes, half_bytes]

theorem exec_tripClearStation (v : Byte) (hl : s.live) (ha : s.admitsWrite h 15) :
    exec (.tripClearStation h v) s =
      .next (s.withNode (finish s.settings (writeTripClear s.settings h v s.node))) := by
  simp only [exec, execTripClearStation]
  rw [State.act_live _ _ hl, writeArrives_admitted rfl ha rfl]; rfl

theorem exec_faultCountsClear (code : Byte) (count : Half) (hl : s.live) (ha : s.admitsWrite h 17) :
    exec (.faultCountsClear h code count) s =
      .next (s.withNode (finish s.settings (writeFaultCounts s.settings h code count s.node))) := by
  simp only [exec, execFaultCountsClear]
  rw [State.act_live _ _ hl, writeArrives_admitted rfl ha rfl]
  show Host.Outcome.next (s.withNode (finish s.settings (writeFaultCounts s.settings h code
    (half (count.extractLsb' 8 8) (count.extractLsb' 0 8)) s.node))) = _
  rw [half_bytes]

theorem exec_faultSummaryClear (v : Byte) (hl : s.live) (ha : s.admitsWrite h 18) :
    exec (.faultSummaryClear h v) s =
      .next (s.withNode (finish s.settings (writeFaultSummary s.settings h v s.node))) := by
  simp only [exec, execFaultSummaryClear]
  rw [State.act_live _ _ hl, writeArrives_admitted rfl ha rfl]; rfl

theorem exec_nodeReset (v : Byte) (hl : s.live) (ha : s.admitsWrite h 21) :
    exec (.nodeReset h v) s =
      .next (s.withNode (finish s.settings (writeNodeReset s.settings h v s.node))) := by
  simp only [exec, execNodeReset]
  rw [State.act_live _ _ hl, writeArrives_admitted rfl ha rfl]; rfl

/-- A SCHED frame from an authority station. -/
theorem schedArrives_admitted (f : Node → Node) (ha : s.admitsSched h) :
    schedArrives s.settings h f s.node = f s.node := by
  have h1 := ha.1
  unfold State.hands at h1
  unfold schedArrives
  rw [h1, ha.2]; rfl

theorem exec_segReceived (p : SegPayload) (hl : s.live) (hh : s.hands h) :
    exec (.segReceived h p) s =
      .next (s.withNode (finish s.settings (receiveSeg s.settings h.source p s.node))) := by
  simp only [exec, execSegReceived]
  rw [State.act_live _ _ hl]
  unfold State.hands at hh
  simp only [segArrives, hh, if_true]

theorem exec_markReceived (p : MarkPayload) (hl : s.live) (hh : s.hands h) :
    exec (.markReceived h p) s =
      .next (s.withNode (finish s.settings (receiveMark s.settings h.source p s.node))) := by
  simp only [exec, execMarkReceived]
  rw [State.act_live _ _ hl]
  unfold State.hands at hh
  simp only [markArrives, hh, if_true]

theorem exec_tripReceived (p : TripPayload) (hl : s.live) (hh : s.hands h) :
    exec (.tripReceived h p) s =
      .next (s.withNode (finish s.settings (receiveTrip s.settings (tripOrigin p) s.node))) := by
  simp only [exec, execTripReceived]
  rw [State.act_live _ _ hl]
  unfold State.hands at hh
  simp only [tripArrives, hh, if_true]

theorem exec_beaconReceived (p : BeaconPayload) (hl : s.live) (hh : s.hands h) :
    exec (.beaconReceived h p) s =
      .next (s.withNode (finish s.settings (receiveBeacon s.settings h.source (beaconInfo p) s.node))) := by
  simp only [exec, execBeaconReceived]
  rw [State.act_live _ _ hl]
  unfold State.hands at hh
  simp only [beaconArrives, hh, if_true]

end Sys2Proof.Machine
end

