-- ==== Sys2Proof/Laws/Tracking.lean ====
section
/-! SUPPORT. What the shared operations of the Gap Controller and the Tracking Unit touch, and what opens
with a segment (R80, R81, R88, R139, R142). -/

namespace Sys2Proof.Machine

variable (c : Settings) (n : Node)

/-- A clamped demand is the demand within the bounds, the bounds included (R139). -/
theorem clampGap_eq_clamped (r : Schedule) (d : Int) : (clampGap r d : Int) = clamped r d := by
  unfold clampGap clamped heldInt
  omega

/-- What a new reference makes of the Gap Controller (R145). -/
theorem refer_eq_placed (c : NodeConfig) (r : Nat) (g : GapControl) : g.refer c r = g.placed c r := by
  have hd : gapDistance r g.reference = ((r : Int) - g.reference).natAbs := by
    unfold gapDistance
    omega
  unfold GapControl.refer GapControl.placed
  by_cases h : r = g.reference
  · subst h
    simp
  · rcases hs : g.supervision with _ | _ | _ | _ | _ <;>
      by_cases hb : c.stepThreshold < gapDistance r g.reference <;> simp_all

/-- A reassembly touches the Gap Controller, and defers an event (R139). -/
theorem reassemble_rest : ∃ g f, reassemble c n = { n with gap := g, flt := f } := by
  unfold reassemble
  split
  · exact ⟨n.gap, n.flt, rfl⟩
  · split
    · simp only
      split
      · exact ⟨n.gap, n.flt, rfl⟩
      · exact ⟨_, _, rfl⟩
    · exact ⟨_, n.flt, rfl⟩

/-- With its event handled, the transmit side too. -/
theorem reassembleNow_rest : ∃ g r f, reassembleNow c n = { n with gap := g, ring := r, flt := f } := by
  obtain ⟨g, f, h⟩ := reassemble_rest c n
  exact ⟨g, _, _, by unfold reassembleNow; rw [h]; rfl⟩

theorem reassembleUnheld_rest :
    ∃ g r f, reassembleUnheld c n = { n with gap := g, ring := r, flt := f } := by
  unfold reassembleUnheld
  split
  · exact reassembleNow_rest c n
  · exact ⟨n.gap, n.ring, n.flt, rfl⟩

theorem setMonitor_rest (v : Int) :
    ∃ g r f, setMonitor c v n = { n with gap := g, ring := r, flt := f } := by
  unfold setMonitor
  split
  · exact ⟨n.gap, n.ring, n.flt, rfl⟩
  · obtain ⟨g, r, f, h⟩ := reassembleNow_rest c { n with gap := { n.gap with monitor := v } }
    exact ⟨g, r, f, by rw [h]⟩

/-- A monitor update touches the Gap Controller and the transmit side (R142). -/
theorem monitorUpdate_rest (d : Option Int) :
    ∃ g r f, monitorUpdate c d n = { n with gap := g, ring := r, flt := f } := by
  unfold monitorUpdate
  split
  · exact ⟨_, n.ring, n.flt, rfl⟩
  · split
    · exact setMonitor_rest c n 0
    · split
      · exact ⟨n.gap, n.ring, n.flt, rfl⟩
      · split
        · rename_i g r _
          obtain ⟨g', r', f', h⟩ := setMonitor_rest c { n with gap := g }
            (heldInt (-5000) 5000 (g.monitor - perMille r.mon _))
          exact ⟨g', r', f', by rw [h]⟩
        · exact ⟨_, n.ring, n.flt, rfl⟩

/-- The welds that a segment takes leave its number, index, span and HEAD flag, and its sums (R88). -/
theorem takeWelds_keeps (ws : List WeldMark) (g : OpenSegment) :
    (takeWelds c ws g).2 =
      { g with weld := (takeWelds c ws g).2.weld, coil := (takeWelds c ws g).2.coil } := by
  induction ws generalizing g with
  | nil => rfl
  | cons w ws ih =>
    unfold takeWelds
    split
    · have := ih { g with weld := true, coil := w.coil }
      rw [this]
    · rfl

/-- A segment that opens takes the next number, and stands at its index from the origin (R80, R81). -/
theorem openSegment_opens (t : Tracking) (k : Nat) :
    ∃ g, (t.openSegment c k).openSeg = some g ∧ g.number = t.nextNumber ∧ g.index = k ∧
      g.head = decide (k = 0) ∧ g.spanStart = t.origin + mm (k * c.config.segLength) ∧ g.good = 0 ∧
      g.sum = 0 ∧ g.suspect = 0 := by
  unfold Tracking.openSegment Tracking.judgeWelds
  refine ⟨_, rfl, ?_⟩
  rw [takeWelds_keeps]
  exact ⟨rfl, rfl, rfl, rfl, rfl, rfl, rfl⟩

/-- Opening a segment moves the next number, and otherwise touches the weld list and the exit coil
number only. -/
theorem openSegment_rest (t : Tracking) (k : Nat) :
    ∃ o w x, t.openSegment c k =
      { t with nextNumber := t.nextNumber + 1, openSeg := o, weldList := w, exitCoil := x } := by
  exact ⟨_, _, _, rfl⟩

/-! ## Hold end (R117, R118) -/

/-- Without a hold, the demand of a strip state is the one that hold end reassembles. -/
theorem demand_eq_unheldDemand (n : Node) (b : Nat) (strip : n.seq.stand.strip = true)
    (free : n.seq.holds.any = false) :
    n.gap.demand n.seq.stand n.seq.holds.any b = n.unheldDemand b := by
  unfold Node.unheldDemand GapControl.demand GapControl.trims
  rw [free]
  cases h : n.seq.stand <;> simp_all [StandState.strip] <;> omega

/-- A reassembly in a strip state without a hold leaves the Gap Controller as at hold end. -/
theorem reassembled_reassembleNow (c : Settings) (n : Node) (strip : n.seq.stand.strip = true)
    (free : n.seq.holds.any = false) : n.reassembled c.config (reassembleNow c n) := by
  intro id r active b base
  have nonneg : clampGap r (n.unheldDemand b) = (clamped r (n.unheldDemand b)).toNat := by
    rw [← clampGap_eq_clamped]; rfl
  unfold reassembleNow
  rw [settle_gap]
  simp only [reassemble, base, strip, active, demand_eq_unheldDemand n b strip free, refer_eq_placed,
    nonneg, clampNeeded, if_true]

/-- A recovery clears its cause, and touches the ring's grace timer, the Gap Controller and the transmit
side only. -/
theorem clearHold_rest (c : Settings) (k : HoldCause) (n : Node) :
    ∃ m g r f, clearHold c k n = { n with
      seq := { n.seq with holds := n.seq.holds.put k false }, memb := m, gap := g, ring := r, flt := f } := by
  unfold clearHold
  split
  · next h =>
    refine ⟨n.memb, n.gap, n.ring, n.flt, ?_⟩
    have : n.seq.holds.put k false = n.seq.holds := by
      cases k <;> simp_all [Holds.has, Holds.put] <;> (cases hh : n.seq.holds; simp_all)
    rw [this]
  · split
    · obtain ⟨g, r, f, h⟩ := reassembleNow_rest c (dropHold k n)
      exact ⟨_, g, r, f, by rw [h]; rfl⟩
    · exact ⟨_, n.gap, n.ring, n.flt, rfl⟩

end Sys2Proof.Machine
end

