-- ==== Sys2Proof/Laws/Application.lean ====
section
/-! SUPPORT. What the application of a record sets going: the step of the trim profile (R134), and the ff term or
the deferral of the head (R140, R141). -/

namespace Sys2Proof.Machine

/-- No entry is reached (R134). -/
theorem lastReached_none (weld number : Half) (es : List (Nat × Int)) : ∀ i,
    lastReached weld number i es = none ↔ ∀ x ∈ es, entryReached weld number x.1 = false := by
  induction es with
  | nil => simp [lastReached]
  | cons e es ih =>
    intro i
    unfold lastReached
    cases h : lastReached weld number (i + 1) es with
    | some x =>
      have some_here : ¬ ∀ x ∈ es, entryReached weld number x.1 = false := fun k => by
        rw [(ih (i + 1)).mpr k] at h
        cases h
      simp only [reduceCtorEq, false_iff]
      exact fun k => some_here (fun x hx => k x (List.mem_cons_of_mem _ hx))
    | none =>
      have none_here := (ih (i + 1)).mp h
      cases hr : entryReached weld number e.1
      · simpa [hr] using none_here
      · simp [hr]

/-- The entry that is found is reached, and no later one is (R134). -/
theorem lastReached_some (weld number : Half) (es : List (Nat × Int)) : ∀ i k trim,
    lastReached weld number i es = some (k, trim) → ∃ j offset, k = i + j ∧ es[j]? = some (offset, trim) ∧
      entryReached weld number offset = true ∧ ∀ x ∈ es.drop (j + 1), entryReached weld number x.1 = false := by
  induction es with
  | nil => intro i k trim h; simp [lastReached] at h
  | cons e es ih =>
    intro i k trim h
    unfold lastReached at h
    cases hl : lastReached weld number (i + 1) es with
    | some x =>
      rw [hl] at h
      cases h
      obtain ⟨j, o, hk, h1, h2, h3⟩ := ih _ _ _ hl
      exact ⟨j + 1, o, by omega, by simpa using h1, h2, by simpa using h3⟩
    | none =>
      rw [hl] at h
      have hn := (lastReached_none weld number es (i+1)).mp hl
      cases hr : entryReached weld number e.1
      · simp [hr] at h
      · simp [hr] at h
        obtain ⟨rfl, rfl⟩ := h
        exact ⟨0, e.1, rfl, by simp, hr, by simpa using hn⟩

/-- An accepted number takes the profile on as R134 says. -/
theorem profileStep_takes (number : Half) (n : Node) :
    n.profileTakes number (n.sched.profileStep number).1.profile
      ((n.sched.profileStep number).2.getD n.gap.profileTrim) := by
  unfold Node.profileTakes SchedStore.profileStep
  cases hp : n.sched.profile with
  | none => simp [hp]
  | some p =>
    dsimp only
    cases hl : lastReached p.weld number p.nextEntry ((n.sched.profileOf p.id).drop (p.nextEntry - 1)) with
    | none => exact Or.inr ⟨(lastReached_none _ _ _ _).mp hl, hp, rfl⟩
    | some x =>
      obtain ⟨j, o, hk, h1, h2, h3⟩ := lastReached_some _ _ _ _ _ _ hl
      exact Or.inl ⟨j, o, h1, h2, h3, by simp only [hk]⟩

/-- A step of the profile touches the profile position only. -/
theorem profileStep_rest (number : Half) (s : SchedStore) :
    (s.profileStep number).1 = { s with profile := (s.profileStep number).1.profile } := by
  unfold SchedStore.profileStep
  split
  · rfl
  · split <;> rfl

/-- Where the ff term needs a coefficient, the one of the present tag is looked up (R140). -/
theorem ffJudge_look (n : Node) (r : ArrivalRecord) (d : Int) (tag : CoefTag) (looks : n.ffLooks r d tag) :
    ffJudge n r.deviation = .look d ∧ n.presentTag = tag := by
  obtain ⟨rolling, free, enabled, dev, id, sc, active, allowed, rfl⟩ := looks
  constructor
  · simp [ffJudge, Node.ffEffective, rolling, free, enabled, dev, active, allowed]
  · simp [Node.presentTag, SchedStore.activeClass, active]

/-- A lookup that misses is counted, and nothing else (R149). -/
theorem lookup_miss (t : CoefTag) (g : GapControl) (miss : g.cached t = none) :
    g.lookup t = ({ g with counts := { g.counts with misses := satInc g.counts.misses } }, none) := by
  unfold GapControl.cached at miss
  unfold GapControl.lookup
  simp only [Option.map_eq_none_iff] at miss
  simp [miss]

/-- A lookup that hits touches the MRU mark, its count and the last used coefficients (R149, R158). -/
theorem lookup_hit (t : CoefTag) (g : GapControl) (k : CoefRecord) (hit : g.cached t = some k) :
    (g.lookup t).2 = some k ∧ ∃ cache, (g.lookup t).1 = { g with
      cache := cache, counts := { g.counts with hits := satInc g.counts.hits }, lastCoefs := some k } := by
  unfold GapControl.cached at hit
  unfold GapControl.lookup
  obtain ⟨⟨way, record⟩, found, rfl⟩ := Option.map_eq_some_iff.mp hit
  simp only [found]
  exact ⟨trivial, _, rfl⟩

/-- A first hand-over whose coefficient is not in the cache defers the head (R140, R141). -/
theorem handOver_defers (c : Settings) (r : ArrivalRecord) (n : Node) (d : Int) (tag : CoefTag)
    (looks : n.ffLooks r d tag) (miss : n.gap.cached tag = none) :
    handOver c r n = deferHead tag { n with gap := { n.gap with
      counts := { n.gap.counts with misses := satInc n.gap.counts.misses } } } := by
  obtain ⟨judged, rfl⟩ := ffJudge_look n r d tag looks
  unfold handOver
  rw [judged]
  simp only [lookup_miss _ _ miss]

/-- Any other first hand-over accepts the record with the ff term of R140, after at most a lookup. -/
theorem handOver_accepts (c : Settings) (r : ArrivalRecord) (n : Node) (v : Int) (takes : n.ffTakes r v) :
    ∃ cache counts last, handOver c r n = accept c r v { n with gap := { n.gap with
      cache := cache, counts := counts, lastCoefs := last } } := by
  unfold handOver
  rcases takes with ⟨h, rfl⟩ | ⟨rolling, free, rfl, h⟩ | ⟨d, tag, k, looks, hit, rfl⟩
  · have : ffJudge n r.deviation = .keep := by
      unfold ffJudge
      rcases h with h | h <;> simp [h]
    rw [this]
    exact ⟨_, _, _, rfl⟩
  · have : ffJudge n r.deviation = .becomes 0 := by
      unfold ffJudge Node.ffEffective
      rcases h with h | h | h
      · simp [rolling, free, h]
      · cases n.gap.ffEnable <;> cases ha : n.sched.active <;> simp [rolling, free, h]
      · cases ha : n.sched.active with
        | none => simp [rolling, free]
        | some x => simp [rolling, free, h x.1 x.2 ha]
    rw [this]
    exact ⟨_, _, _, rfl⟩
  · obtain ⟨judged, rfl⟩ := ffJudge_look n r d tag looks
    obtain ⟨found, cache, rest⟩ := lookup_hit _ _ _ hit
    rw [judged]
    cases hl : n.gap.lookup n.presentTag with
    | mk g o =>
      rw [hl] at found rest
      cases found
      subst rest
      exact ⟨_, _, _, rfl⟩

end Sys2Proof.Machine
end

