-- ==== Sys2Proof/Laws/Arrival.lean ====
section
/-! SUPPORT. What the arrival of an intact frame is: the forwarding, then the row of its kind (R6 to R11,
log 1). -/

namespace Sys2Proof.Machine

variable {s : State} {bytes : List Byte} {f : Frame}

/-- Outside a reset a command's act is what it does to the node. -/
theorem act_live (g : Settings → Node → Node) (hl : s.live) :
    s.act g = .next (s.withNode (finish s.settings (g s.settings s.node))) := by
  have h : s.inReset = false := by simpa [State.inReset, State.live] using hl
  simp [State.act, h]

theorem forward_startup (c : Settings) (f : Frame) (n : Node) :
    (forward c f n).startup = n.startup := by
  unfold forward; split
  · exact raise_startup _ _ _ rfl
  · split
    · exact pump_startup _ _
    · exact raise_startup _ _ _ rfl

/-- An act of the node after it has forwarded a frame is that act of the machine that has. -/
theorem act_forwarded (g : Settings → Node → Node) (hl : s.live) :
    s.act (fun c n => g c (forward c f n)) =
      (s.withNode (forward s.settings f s.node)).act g := by
  have hu : (s.withNode (forward s.settings f s.node)).live := by
    simpa [State.live, forward_startup] using hl
  rw [act_live _ hl, act_live _ hu]; rfl

/-- A frame from another station that is no orphan is forwarded and delivered (R10, R11). -/
theorem frameArrival_foreign (hj : judgeArrival bytes = .intact f)
    (hs : s.node.seq.stand ≠ .starting) (ho : f.source ≠ byte s.settings.station)
    (hh : f.hop + 1 < 32) (hl : s.live) :
    exec (.frameArrival bytes) s =
      (s.withNode (forward s.settings f s.node)).act (fun c n => deliver c f n) := by
  rw [← act_forwarded _ hl, act_live _ hl]
  have hor : isOrphan f = false := by simp [isOrphan]; omega
  show s.act (fun c n => frameArrives c bytes n) = _
  rw [act_live _ hl]
  simp only [frameArrives, hj, intactFrame, if_neg hs, if_neg ho, foreignFrame, hor]
  rfl

/-- An own frame other than a CLAIM is a return (R6, R8). -/
theorem frameArrival_own (hj : judgeArrival bytes = .intact f)
    (hs : s.node.seq.stand ≠ .starting) (ho : f.source = byte s.settings.station)
    (hk : f.kind ≠ .claim) (hl : s.live) :
    exec (.frameArrival bytes) s = exec (.ownFrameReturn f.tag) s := by
  show s.act (fun c n => frameArrives c bytes n) =
    s.act (fun c n => if n.seq.stand = .starting then n else returnOwn c f.tag n)
  rw [act_live _ hl, act_live _ hl]
  simp only [frameArrives, hj, intactFrame, if_neg hs, if_pos ho, if_neg hk]

/-- An intact frame's destination and hop count lie in their ranges (R5). -/
theorem judgeArrival_ranges (hj : judgeArrival bytes = .intact f) :
    1 ≤ f.dest.toNat ∧ f.dest.toNat ≤ 31 ∧ f.hop ≤ 32 := by
  unfold judgeArrival at hj
  simp only at hj
  split at hj
  · cases hj
  · unfold parseBody at hj
    split at hj
    · cases hj
    · rename_i g hp
      cases hj
      split at hp
      · split at hp
        · cases hp
        · split at hp
          · rename_i hr
            simp only [Bool.and_eq_true, decide_eq_true_eq] at hr
            cases hp
            exact ⟨hr.1.1.1.1.2, hr.1.1.1.2, hr.1.1.2⟩
          · cases hp
      · cases hp

end Sys2Proof.Machine
end

