-- ==== Sys2Proof/Laws/Trips.lean ====
section
/-! SUPPORT. Local causes and FATAL faults in a stand before a trip (R163, R167, R182). -/

namespace Sys2Proof.Machine

variable (c : Settings) (n : Node)

theorem Node.untripped.notStarting {n : Node} (h : n.untripped) : n.seq.stand ≠ .starting := h.1

theorem Node.untripped.notStopped {n : Node} (h : n.untripped) : n.seq.stand.stopped = false := h.2.1

theorem Node.untripped.notTripped {n : Node} (h : n.untripped) : n.seq.stand ≠ .tripped := by
  intro e; have := h.notStopped; rw [e] at this; cases this

/-- With an empty record no origin of a station is recorded. -/
theorem Node.untripped.notRecorded {n : Node} (h : n.untripped) (k : Nat) :
    n.trip.recorded k = false := by
  simp [TripUnit.recorded, h.2.2.1, h.2.2.2, holdsStation]

/-- Trip entry aborts a PRESET entry and takes it from the table (R53). -/
theorem abortPreset_dir :
    (abortPreset c n).dir = { n.dir with table := n.dir.table.eraseP isPreset } := by
  unfold abortPreset endEntryDeferred
  cases h : n.dir.table.find? isPreset with
  | none =>
    have hall : ∀ x ∈ n.dir.table, ¬ isPreset x = true := by
      intro x hx; simpa using List.find?_eq_none.mp h x hx
    rw [List.eraseP_of_forall_not hall]
  | some e => rfl

/-- Apart from the request table, aborting a PRESET touches the transmit side only. -/
theorem abortPreset_rest :
    ∃ r f d, abortPreset c n = { n with ring := r, flt := f, dir := d } := by
  unfold abortPreset endEntryDeferred
  cases h : n.dir.table.find? isPreset with
  | none => exact ⟨n.ring, n.flt, n.dir, rfl⟩
  | some e => exact ⟨_, _, _, rfl⟩

/-- Trip entry from a node whose cause has been placed (R167). -/
theorem enterTripped_tripsTo : n.tripsTo c (enterTripped c n) := by
  obtain ⟨r, f, d, h⟩ := abortPreset_rest c (enterTrippedQuietly c n)
  have hd := abortPreset_dir c (enterTrippedQuietly c n)
  unfold enterTripped
  refine ⟨?_, ?_, ?_, ?_, ?_, ?_, ?_⟩
  · rw [h]; rfl
  · rw [h]; rfl
  · rw [hd]; rfl
  · rw [h]; rfl
  · rw [h]; rfl
  · rw [h]; rfl
  · rw [h]; rfl

theorem enterTripped_trip :
    (enterTripped c n).trip = { n.trip with tripEntries := satInc n.trip.tripEntries } := by
  obtain ⟨r, f, d, h⟩ := abortPreset_rest c (enterTrippedQuietly c n)
  unfold enterTripped; rw [h]; rfl

/-- The blocks that trip entry leaves as they stand. -/
theorem enterTripped_kept :
    (enterTripped c n).startup = n.startup ∧ (enterTripped c n).pins = n.pins ∧
      (enterTripped c n).clock = n.clock ∧ (enterTripped c n).freeIndex = n.freeIndex := by
  obtain ⟨r, f, d, h⟩ := abortPreset_rest c (enterTrippedQuietly c n)
  unfold enterTripped; rw [h]; exact ⟨rfl, rfl, rfl, rfl⟩

theorem enterTrippedIfNot_kept :
    (enterTrippedIfNot c n).startup = n.startup ∧ (enterTrippedIfNot c n).pins = n.pins ∧
      (enterTrippedIfNot c n).clock = n.clock ∧ (enterTrippedIfNot c n).freeIndex = n.freeIndex := by
  unfold enterTrippedIfNot
  split
  · exact ⟨rfl, rfl, rfl, rfl⟩
  · exact enterTripped_kept c n

theorem takeCause_kept (kind detail : Byte) :
    (takeCause c kind detail n).startup = n.startup ∧ (takeCause c kind detail n).pins = n.pins ∧
      (takeCause c kind detail n).clock = n.clock ∧
      (takeCause c kind detail n).freeIndex = n.freeIndex := by
  unfold takeCause
  split
  · exact ⟨rfl, rfl, rfl, rfl⟩
  · exact enterTrippedIfNot_kept c _

/-- The blocks that a local cause leaves as they stand, in every state. -/
theorem localCause_kept (kind detail : Byte) (a : Bool) :
    (localCause c kind detail a n).startup = n.startup ∧ (localCause c kind detail a n).pins = n.pins ∧
      (localCause c kind detail a n).clock = n.clock ∧
      (localCause c kind detail a n).freeIndex = n.freeIndex := by
  unfold localCause
  split
  · exact ⟨rfl, rfl, rfl, rfl⟩
  · split
    · exact takeCause_kept c n kind detail
    · exact takeCause_kept c n kind detail

theorem routeEvent_kept (ev : FaultEvent) :
    (routeEvent c ev n).startup = n.startup ∧ (routeEvent c ev n).pins = n.pins ∧
      (routeEvent c ev n).clock = n.clock ∧ (routeEvent c ev n).freeIndex = n.freeIndex := by
  unfold routeEvent
  split
  · exact ⟨rfl, rfl, rfl, rfl⟩
  · exact localCause_kept c n _ _ _
  · split
    · exact localCause_kept c n _ _ _
    · split
      · unfold setHold
        split <;> exact ⟨rfl, rfl, rfl, rfl⟩
      · exact ⟨rfl, rfl, rfl, rfl⟩

/-- The blocks that a fault leaves as they stand, whatever its class. -/
theorem raise_kept (code : FaultCode) :
    (raise c code n).startup = n.startup ∧ (raise c code n).pins = n.pins ∧
      (raise c code n).clock = n.clock ∧ (raise c code n).freeIndex = n.freeIndex := by
  have h := routeEvent_kept c (countEvent (eventOf code n) (settle c n)) (eventOf code n)
  exact h

/-- A local cause in TRIPPED or LOCKOUT, other than an actuator fault in TRIPPED, only counts as a repeat
or places its origin. -/
theorem takeCause_stopped (kind detail : Byte) (h : n.seq.stand.stopped = true) :
    takeCause c kind detail n =
      if n.trip.recorded c.station then
        { n with trip := { n.trip with localRepeats := satInc n.trip.localRepeats } }
      else placeOwn c (ownOrigin c kind detail n) n := by
  unfold takeCause enterTrippedIfNot
  split
  · rfl
  · rw [if_pos (by exact h)]

/-- A local cause in a stand before a trip is its own placing and trip entry. -/
theorem localCause_untripped (kind detail : Byte) (a : Bool) (hu : n.untripped) :
    localCause c kind detail a n = enterTripped c (placeOwn c (ownOrigin c kind detail n) n) := by
  have h1 := hu.notStarting
  have h2 := hu.notTripped
  have h3 := hu.notRecorded c.station
  have h4 := hu.notStopped
  unfold localCause takeCause enterTrippedIfNot
  simp [h1, h2, h3, h4]

/-- A local cause in a stand before a trip places the own origin and trips the stand (R163, R167). -/
theorem localCause_tripsOn (kind detail : Byte) (a : Bool) (hu : n.untripped) :
    n.tripsOn c kind detail (localCause c kind detail a n) := by
  rw [localCause_untripped c n kind detail a hu]
  have ht := enterTripped_tripsTo c (placeOwn c (ownOrigin c kind detail n) n)
  have hk := enterTripped_kept c (placeOwn c (ownOrigin c kind detail n) n)
  refine ⟨ht, ?_, hk⟩
  rw [enterTripped_trip]
  simp only [placeOwn, offerTrip, pump, TripUnit.placeOrigin, hu.2.2.1]
  rfl

/-- A fault that is routed to the Trip Unit: a FATAL one, or a NONFATAL one under the route TRIP (R182). -/
theorem routeEvent_trips (code : FaultCode) (m : Node)
    (hf : code.cls n.seq.stand = .fatal ∨
      code.cls n.seq.stand = .nonfatal ∧ c.config.route = .trip) :
    ∃ a, routeEvent c (eventOf code n) m = localCause c 2 (byte code.number) a m := by
  rcases hf with hf | ⟨hf, ht⟩
  · have : (eventOf code n).cls = .fatal := hf
    exact ⟨code.actuator, by unfold routeEvent; rw [this]; rfl⟩
  · have : (eventOf code n).cls = .nonfatal := hf
    exact ⟨false, by unfold routeEvent; rw [this]; simp only [ht]; rfl⟩

/-- A fault routed to the Trip Unit in a stand before a trip does what its local cause does, on the
transmit side apart. -/
theorem raise_tripsOn (code : FaultCode) (hu : n.untripped)
    (hf : code.cls n.seq.stand = .fatal ∨
      code.cls n.seq.stand = .nonfatal ∧ c.config.route = .trip) :
    n.tripsOn c 2 (byte code.number) (raise c code n) := by
  have hs : (countEvent (eventOf code n) (settle c n)).untripped := hu
  obtain ⟨a, hr⟩ := routeEvent_trips c n code (countEvent (eventOf code n) (settle c n)) hf
  have h := localCause_tripsOn c (countEvent (eventOf code n) (settle c n)) 2 (byte code.number) a hs
  unfold raise handleEvent
  rw [hr]
  exact h

/-- The transmit side of a local cause, given room. -/
theorem localCause_room (kind detail : Byte) (a : Bool) (hu : n.untripped)
    (hb : n.ring.sending.isSome = true) (hq : n.ring.insertQueue.length < 16) :
    (localCause c kind detail a n).flt = n.flt ∧
    (localCause c kind detail a n).ring = { n.ring with
      tripSlot := some (causeFrame c kind detail n)
      insertQueue := n.ring.insertQueue ++ abortReplies n } := by
  rw [localCause_untripped c n kind detail a hu]
  have hp : placeOwn c (ownOrigin c kind detail n) n =
      { n with
        trip := n.trip.placeOrigin (ownOrigin c kind detail n)
        ring := { n.ring with tripSlot := some (causeFrame c kind detail n) } } := by
    unfold placeOwn offerTrip
    rw [pump_busy c _ (by exact hb)]; rfl
  rw [hp]
  unfold enterTripped abortPreset endEntryDeferred abortReplies
  simp only [enterTrippedQuietly_dir]
  cases hfind : n.dir.table.find? isPreset with
  | none => simp [enterTrippedQuietly]
  | some e =>
    simp only [offer]
    rw [Rep.offer_room _ _ _ (by simpa [enterTrippedQuietly] using hb)
      (by simpa [enterTrippedQuietly] using hq)]
    by_cases ha : n.memb.ring.admits .reply = true
    · simp [ctxOf, enterTrippedQuietly, replyFrame, ha]
    · have ha' : n.memb.ring.admits .reply = false := by simpa using ha
      simp [ctxOf, enterTrippedQuietly, replyFrame, ha']

/-- A fault routed to the Trip Unit in a stand before a trip, whole (R179, R182). -/
theorem raise_room_fatal (code : FaultCode) (hu : n.untripped)
    (hf : code.cls n.seq.stand = .fatal ∨
      code.cls n.seq.stand = .nonfatal ∧ c.config.route = .trip) (hb : n.ring.sending.isSome = true)
    (hr : n.flt.raised = []) (hq : n.ring.insertQueue.length + 2 ≤ 16) :
    (raise c code n).flt = n.flt.after c (eventOf code n) ∧
    (raise c code n).ring = { n.ring with
      tripSlot := some (causeFrame c 2 (byte code.number) n)
      insertQueue := queueAfter c n.memb.ring (eventOf code n) n.flt
        (n.ring.insertQueue ++ abortReplies n) } := by
  have hs : (countEvent (eventOf code n) n).untripped := hu
  obtain ⟨a, hroute⟩ := routeEvent_trips c n code (countEvent (eventOf code n) n) hf
  have hroom := localCause_room c (countEvent (eventOf code n) n) 2 (byte code.number) a hs
    hb (by simp only [countEvent]; omega)
  have htrip := localCause_tripsOn c (countEvent (eventOf code n) n) 2 (byte code.number) a hs
  unfold raise handleEvent
  rw [settle_none c n hr, hroute]
  have hlen : (n.ring.insertQueue ++ abortReplies n).length < 16 := by
    have : (abortReplies n).length ≤ 1 := by
      unfold abortReplies
      split
      · cases n.dir.table.find? isPreset <;> simp
      · simp
    simp only [List.length_append]; omega
  generalize localCause c 2 (byte code.number) a (countEvent (eventOf code n) n) = m at hroom htrip
  have hmemb : m.memb.ring = n.memb.ring := by rw [htrip.1.2.1]; rfl
  have hrep := Rep.report_room c (ctxOf c m) (eventOf code n) n.flt m.ring rfl rfl hr rfl
    (by rw [hroom.2]; exact hb) (by rw [hroom.2]; exact hlen)
  have hflt : m.flt = n.flt.count (eventOf code n) := hroom.1
  unfold reportEvent
  rw [hflt, hrep, settle_none _ _ rfl]
  refine ⟨rfl, ?_⟩
  show ({ m.ring with insertQueue := _ } : RingPort) = _
  rw [hroom.2]
  simp only [ctxOf, hmemb]
  rfl

end Sys2Proof.Machine
end

