-- ==== Sys2Proof/Laws/Faults.lean ====
section
/-! SUPPORT. A fault raised as a command's last effect, by its class (R179, R182). -/

namespace Sys2Proof.Machine

variable {s : State} {m : Node}

theorem Node.tripsOn_finish {c : Settings} {kind detail : Byte} {n : Node}
    (h : n.tripsOn c kind detail m) : n.tripsOn c kind detail (finish c m) := h

/-- A fault routed to the Trip Unit, raised in a stand before a trip at a node whose transmit side is
still untouched. -/
theorem tripsByFault_raise {code : FaultCode} (hu : m.untripped)
    (hf : code.cls m.seq.stand = .fatal ∨
      code.cls m.seq.stand = .nonfatal ∧ s.settings.config.route = .trip) (hr : m.ring = s.node.ring) (hx : m.flt = s.node.flt) :
    s.tripsByFault code m (s.withNode (finish s.settings (raise s.settings code m))) := by
  refine ⟨raise_tripsOn _ _ _ hu hf, ?_⟩
  intro hroom
  have ⟨hb, hw, hq⟩ := hroom
  have h := raise_room_fatal s.settings m code hu hf (by rw [hr]; exact hb) (by rw [hx]; exact hw)
    (by rw [hr]; exact hq)
  rw [finish_room hroom (by rw [h.2, hr]) (by rw [h.1]; rfl)]
  exact ⟨by rw [withNode_node, h.1, hx], by rw [withNode_node, h.2, hr, hx]⟩

/-- A local cause in a stand before a trip, at a node whose transmit side is still untouched. -/
theorem localCause_offers {kind detail : Byte} {a : Bool} (hu : m.untripped)
    (hr : m.ring = s.node.ring) (hx : m.flt = s.node.flt) (hroom : s.roomFor 1) :
    (finish s.settings (localCause s.settings kind detail a m)).flt = s.node.flt ∧
    (finish s.settings (localCause s.settings kind detail a m)).ring = { s.node.ring with
      tripSlot := some (causeFrame s.settings kind detail m)
      insertQueue := s.node.ring.insertQueue ++ abortReplies m } := by
  have ⟨hb, hw, hq⟩ := hroom
  have h := localCause_room s.settings m kind detail a hu (by rw [hr]; exact hb) (by rw [hr]; omega)
  rw [finish_room hroom (by rw [h.2, hr]) (by rw [h.1, hx, hw])]
  exact ⟨by rw [h.1, hx], by rw [h.2, hr]⟩

/-- A NONFATAL fault under the route HOLD sets its hold cause and is reported (R182). -/
theorem raise_hold (c : Settings) (n : Node) (code : FaultCode) (k : HoldCause)
    (hn : code.cls n.seq.stand = .nonfatal) (hh : c.config.route = .hold) (hk : code.holdCause = some k) :
    raise c code n = settle c (reportEvent c (eventOf code n)
      (setHold c k (countEvent (eventOf code n) (settle c n)))) := by
  unfold raise handleEvent
  have : routeEvent c (eventOf code n) (countEvent (eventOf code n) (settle c n)) =
      setHold c k (countEvent (eventOf code n) (settle c n)) := by
    have e : (eventOf code n).cls = .nonfatal := hn
    have e2 : (eventOf code n).code.holdCause = some k := hk
    unfold routeEvent; rw [e]; simp only [hh, e2]
  rw [this]

/-- A hold cause touches the Sequencer, the Gap Controller and the grace timer only. -/
theorem setHold_ring (c : Settings) (k : HoldCause) (n : Node) :
    (setHold c k n).ring = n.ring ∧ (setHold c k n).flt = n.flt ∧
    (setHold c k n).memb.ring = n.memb.ring ∧ (setHold c k n).seq.stand = n.seq.stand ∧
    (setHold c k n).track = n.track := by
  unfold setHold
  split
  · exact ⟨rfl, rfl, rfl, rfl, rfl⟩
  · refine ⟨rfl, rfl, ?_, rfl, rfl⟩
    simp only
    split <;> rfl

/-- A NONFATAL fault under the route HOLD, raised last. -/
theorem reports_hold {code : FaultCode} {k : HoldCause} (hn : code.cls s.node.seq.stand = .nonfatal)
    (hh : s.settings.config.route = .hold) (hk : code.holdCause = some k)
    (hr : m.ring = s.node.ring) (hf : m.flt = s.node.flt) (hm : m.memb.ring = s.node.memb.ring)
    (hs : m.seq.stand = s.node.seq.stand) (ht : m.track.current = s.node.track.current) :
    s.reports code s.node (s.withNode (finish s.settings (raise s.settings code m))) := by
  intro hroom
  have ⟨hb, hw, hq⟩ := hroom
  have he : eventOf code m = eventOf code s.node := by simp [eventOf, hs, ht]
  rw [raise_hold _ _ _ k (by rw [hs]; exact hn) hh hk, settle_none s.settings m (by rw [hf]; exact hw), he]
  have hset := setHold_ring s.settings k (countEvent (eventOf code s.node) m)
  generalize setHold s.settings k (countEvent (eventOf code s.node) m) = q at hset
  have hflt : q.flt = s.node.flt.count (eventOf code s.node) := by rw [hset.2.1]; simp [countEvent, hf]
  have hring : q.ring = s.node.ring := by rw [hset.1]; simp [countEvent, hr]
  have hmr : q.memb.ring = s.node.memb.ring := by rw [hset.2.2.1]; simp [countEvent, hm]
  have hrep := Rep.report_room s.settings (ctxOf s.settings q) (eventOf code s.node) s.node.flt
    q.ring rfl rfl hw rfl (by rw [hring]; exact hb) (by rw [hring]; omega)
  unfold reportEvent
  rw [hflt, hrep, settle_none _ _ rfl]
  rw [finish_room hroom (by simp [hring]) rfl]
  simp [hring, ctxOf, hmr]

end Sys2Proof.Machine
end

