-- ==== Sys2Proof/Laws/Memory.lean ====
section
/-! SUPPORT. The parameter memory: every operation keeps its canonical form, and a byte written is the
byte read. -/

namespace Sys2Proof.Machine

theorem memWfFrom_weaken {lo hi : Nat} (h : lo ≤ hi) (m : List Host.Cell)
    (w : memWfFrom hi m = true) : memWfFrom lo m = true := by
  cases m with
  | nil => rfl
  | cons x rest =>
    obtain ⟨a, b⟩ := x
    simp only [memWfFrom, Bool.and_eq_true, decide_eq_true_eq] at w ⊢
    exact ⟨⟨by omega, w.1.2⟩, w.2⟩

theorem memWfFrom_memWrite (m : List Host.Cell) (lo a : Nat) (b : Byte) (ha : lo ≤ a)
    (w : memWfFrom lo m = true) : memWfFrom lo (memWrite m a b) = true := by
  induction m generalizing lo with
  | nil =>
    simp only [memWrite]
    split
    · rfl
    · next h => simp [memWfFrom, ha, h]
  | cons x rest ih =>
    obtain ⟨k, v⟩ := x
    simp only [memWfFrom, Bool.and_eq_true, decide_eq_true_eq] at w
    obtain ⟨⟨hk, hv⟩, hr⟩ := w
    simp only [memWrite]
    split
    · next hlt =>
      split
      · simp only [memWfFrom, Bool.and_eq_true, decide_eq_true_eq]; exact ⟨⟨hk, hv⟩, hr⟩
      · next hb =>
        simp only [memWfFrom, Bool.and_eq_true, decide_eq_true_eq]
        exact ⟨⟨ha, hb⟩, ⟨by omega, hv⟩, hr⟩
    · next hlt =>
      split
      · next he =>
        subst he
        split
        · exact memWfFrom_weaken (by omega) rest hr
        · next hb =>
          simp only [memWfFrom, Bool.and_eq_true, decide_eq_true_eq]
          exact ⟨⟨ha, hb⟩, hr⟩
      · next he =>
        simp only [memWfFrom, Bool.and_eq_true, decide_eq_true_eq]
        exact ⟨⟨hk, hv⟩, ih (k + 1) (by omega) hr⟩

/-- A write keeps the canonical form. -/
theorem memWf_memWrite (m : List Host.Cell) (a : Nat) (b : Byte) (w : memWf m = true) :
    memWf (memWrite m a b) = true :=
  memWfFrom_memWrite m 0 a b (Nat.zero_le a) w

/-- Writing several bytes keeps the canonical form. -/
theorem memWf_memWriteBytes (bs : List Byte) (m : List Host.Cell) (a : Nat) (w : memWf m = true) :
    memWf (memWriteBytes m a bs) = true := by
  induction bs generalizing m a with
  | nil => exact w
  | cons b bs ih => exact ih _ _ (memWf_memWrite m a b w)

/-- Taking over what the memory delivers keeps the canonical form. -/
theorem memWf_memTake (m : List Host.Cell) (a k : Nat) (r : MemRead) (w : memWf m = true) :
    memWf (memTake m a k r) = true := by
  cases r with
  | stored => exact w
  | delivered bs => exact memWf_memWriteBytes _ m a w

theorem memRead_below {lo : Nat} (m : List Host.Cell) (a : Nat) (h : a < lo)
    (w : memWfFrom lo m = true) : memRead m a = memDefault := by
  induction m generalizing lo with
  | nil => rfl
  | cons x rest ih =>
    obtain ⟨k, v⟩ := x
    simp only [memWfFrom, Bool.and_eq_true, decide_eq_true_eq] at w
    simp only [memRead]
    rw [if_neg (by omega)]
    exact ih (lo := k + 1) (by omega) w.2

theorem memRead_memWriteFrom (m : List Host.Cell) (lo a x : Nat) (b : Byte)
    (w : memWfFrom lo m = true) :
    memRead (memWrite m a b) x = if x = a then b else memRead m x := by
  induction m generalizing lo with
  | nil =>
    simp only [memWrite]
    split
    · next h => subst h; simp only [memRead]; split <;> rfl
    · simp only [memRead, eq_comm]
  | cons c rest ih =>
    obtain ⟨k, v⟩ := c
    simp only [memWfFrom, Bool.and_eq_true, decide_eq_true_eq] at w
    obtain ⟨⟨hk, hv⟩, hr⟩ := w
    have hrest : ∀ y, y ≤ k → memRead rest y = memDefault := fun y hy =>
      memRead_below (lo := k + 1) rest y (by omega) hr
    simp only [memWrite]
    by_cases h1 : a < k
    · rw [if_pos h1]
      by_cases hb : b = memDefault
      · rw [if_pos hb]
        by_cases hx : x = a
        · subst hx
          simp only [memRead, if_true]
          rw [if_neg (by omega), hrest x (by omega), hb]
        · rw [if_neg hx]
      · rw [if_neg hb]
        by_cases hx : x = a
        · subst hx; simp [memRead]
        · rw [if_neg hx]
          show (if a = x then b else memRead ((k, v) :: rest) x) = _
          rw [if_neg (fun h => hx h.symm)]
    · rw [if_neg h1]
      by_cases h2 : a = k
      · subst h2
        rw [if_pos rfl]
        by_cases hb : b = memDefault
        · rw [if_pos hb]
          by_cases hx : x = a
          · subst hx; rw [if_pos rfl, hrest x (Nat.le_refl x), hb]
          · rw [if_neg hx]
            show _ = if a = x then v else memRead rest x
            rw [if_neg (fun h => hx h.symm)]
        · rw [if_neg hb]
          by_cases hx : x = a
          · subst hx; simp [memRead]
          · rw [if_neg hx]
            simp only [memRead]
            rw [if_neg (fun h => hx h.symm), if_neg (fun h => hx h.symm)]
      · rw [if_neg h2]
        simp only [memRead]
        rw [ih (k + 1) hr]
        by_cases hx : k = x
        · subst hx
          rw [if_pos rfl, if_pos rfl, if_neg (fun h => h2 h.symm)]
        · rw [if_neg hx, if_neg hx]

/-- A byte written is read back, and every other byte reads as before. -/
theorem memRead_memWrite (m : List Host.Cell) (a x : Nat) (b : Byte) (w : memWf m = true) :
    memRead (memWrite m a b) x = if x = a then b else memRead m x :=
  memRead_memWriteFrom m 0 a x b w

/-- Bytes below the first one written read as before. -/
theorem memRead_memWriteBytes_below (bs : List Byte) (m : List Host.Cell) (a x : Nat)
    (w : memWf m = true) (h : x < a) : memRead (memWriteBytes m a bs) x = memRead m x := by
  induction bs generalizing m a with
  | nil => rfl
  | cons b bs ih =>
    simp only [memWriteBytes]
    rw [ih _ _ (memWf_memWrite m a b w) (by omega), memRead_memWrite m a x b w, if_neg (by omega)]

/-- Bytes above the last one written read as before. -/
theorem memRead_memWriteBytes_above (bs : List Byte) (m : List Host.Cell) (a x : Nat)
    (w : memWf m = true) (h : a + bs.length ≤ x) :
    memRead (memWriteBytes m a bs) x = memRead m x := by
  induction bs generalizing m a with
  | nil => rfl
  | cons b bs ih =>
    simp only [List.length_cons] at h
    simp only [memWriteBytes]
    rw [ih _ _ (memWf_memWrite m a b w) (by omega), memRead_memWrite m a x b w, if_neg (by omega)]

/-- Bytes written are read back in order. -/
theorem memReadBytes_memWriteBytes (bs : List Byte) (m : List Host.Cell) (a : Nat)
    (w : memWf m = true) : memReadBytes (memWriteBytes m a bs) a bs.length = bs := by
  induction bs generalizing m a with
  | nil => rfl
  | cons b bs ih =>
    simp only [memWriteBytes, List.length_cons, memReadBytes]
    rw [ih _ _ (memWf_memWrite m a b w)]
    rw [memRead_memWriteBytes_below bs _ (a + 1) a (memWf_memWrite m a b w) (by omega),
      memRead_memWrite m a a b w, if_pos rfl]

end Sys2Proof.Machine
end

