-- ==== Sys2Proof/Laws/Publication.lean ====
section
/-! SUPPORT. The frames that the node offers of itself, and what a closing segment's record holds (R33, R86 to
R91). -/

namespace Sys2Proof.Machine

/-- The BEACON that is offered is the node's (R33). -/
theorem beaconFrame_eq_beacon (c : Settings) (n : Node) : beaconFrame c n = n.beacon c.config := rfl

/-- The SEG that is offered is the record's (R89). -/
theorem segFrame_eq_segOf (c : Settings) (r : ExitRecord) (k : Nat) : segFrame c r k = segOf c.config k r := rfl

/-- The MARK that is offered is the record's (R91). -/
theorem markFrame_eq_markOf (c : Settings) (r : ExitRecord) : markFrame c r.number = markOf c.config r := rfl

/-- The true remaining distance, held at 0 and at the bite distance (R90). -/
theorem trueRemaining_eq_remainingAt (c : Settings) (count : Pos) (r : ExitRecord) :
    trueRemaining c count r = remainingAt c.config count r := by
  unfold trueRemaining remainingAt reaches
  rw [BitVec.toInt_eq_toNat_cond]
  have := (count - r.spanStart).isLt
  split <;> simp_all <;> split <;> omega

/-- The record of a closing segment holds what R86 and R87 say. -/
theorem closeRecord_closedAs (c : Settings) (tail : Bool) (id : Nat) (r : Schedule) (g : OpenSegment) :
    g.closedAs c.config id r tail (closeRecord c tail id r g) := by
  unfold OpenSegment.closedAs closeRecord OpenSegment.mean OpenSegment.excess meanTimesGood heldInt
  simp

end Sys2Proof.Machine
end

