-- ==== Sys2Proof/Laws/Reads.lean ====
section
/-! SUPPORT. The layout of what a read returns, said once for each shared piece of it. -/

namespace Sys2Proof.Machine

theorem flagByte_eq_ite (b : Bool) : flagByte b = if b then 1 else 0 := by cases b <;> rfl

@[simp] theorem present_none {α : Type} (size : Nat) (fields : α → List Byte) :
    present size fields none = 0 :: List.replicate size 0 := rfl

@[simp] theorem present_some {α : Type} (size : Nat) (fields : α → List Byte) (a : α) :
    present size fields (some a) = 1 :: fields a := rfl

@[simp] theorem counts_nil : counts [] = [] := rfl

@[simp] theorem counts_cons (x : Nat) (xs : List Nat) : counts (x :: xs) = natBytes x ++ counts xs := rfl

/-- A signed value that two bytes hold is sent as them. -/
theorem narrowBytes_of_fits {v : Int} (low : -32768 ≤ v) (high : v ≤ 32767) :
    narrowBytes v = intBytes v := by simp [narrowBytes, low, high]

/-- The non-fatal route reads as Table 12-6 codes it. -/
theorem configField_route (c : Settings) : configField c 31 = some [routeCode c.config.route] := rfl

/-- Fields 39 to 63 are the closure and the settled class of the objects 0 to 24. -/
theorem configField_object (c : Settings) {i : Nat} (h : i < 25) :
    configField c (39 + i) = some [closureCode (c.config.closures.getD i .openTo),
      ((settledClass c i).map AccessClass.code).getD 0] := by
  interval_cases i <;> rfl

/-- No field stands above 64. -/
theorem configField_above (c : Settings) {k : Nat} (h : 64 < k) : configField c k = none := by
  unfold configField
  split <;> first | omega | (simp; omega)

end Sys2Proof.Machine
end

