-- ==== Sys2Proof/Laws/Time.lean ====
section
/-! SUPPORT. What a step on an empty queue can do: the events that fall together join the queue in some
order, and a millisecond moves the timers, the clock and the free index only. -/

namespace Sys2Proof.Machine

/-- Whatever order is drawn, the events drawn are the events given. -/
theorem drawOrder_perm (fuel k : Nat) (xs : List Instr) : (drawOrder fuel k xs).Perm xs := by
  induction fuel generalizing k xs with
  | zero => simp [drawOrder]
  | succ f ih =>
    match xs with
    | [] => simp [drawOrder]
    | [x] => simp [drawOrder]
    | x :: y :: rest =>
      simp only [drawOrder]
      have hi : Config.freeOrder k % (x :: y :: rest).length < (x :: y :: rest).length :=
        Nat.mod_lt _ (Nat.succ_pos _)
      generalize Config.freeOrder k % (x :: y :: rest).length = j at hi
      have hg : (x :: y :: rest).getD j x = (x :: y :: rest)[j] := by
        simp [List.getD, List.getElem?_eq_getElem hi]
      rw [hg]
      exact ((ih _ _).cons _).trans (List.getElem_cons_eraseIdx_perm hi)

variable (xs : List Instr) (s : State) (n : Node)

@[simp] theorem place_settings : (s.place xs).settings = s.settings := rfl
@[simp] theorem place_paramMem : (s.place xs).paramMem = s.paramMem := rfl
theorem place_node : (s.place xs).node =
    { s.node with freeIndex := s.node.freeIndex + drawCount xs } := rfl

/-- What is placed joins the tail of the queue in some order. -/
theorem place_pending : ∃ ys, ys.Perm xs ∧ (s.place xs).pending = s.pending ++ ys :=
  ⟨_, drawOrder_perm _ _ _, rfl⟩

@[simp] theorem tickNode_ring : (tickNode n).ring = n.ring := rfl
@[simp] theorem tickNode_dir : (tickNode n).dir = n.dir := rfl
@[simp] theorem tickNode_meas : (tickNode n).meas = n.meas := rfl
@[simp] theorem tickNode_track : (tickNode n).track = n.track := rfl
@[simp] theorem tickNode_seq : (tickNode n).seq = n.seq := rfl
@[simp] theorem tickNode_trip : (tickNode n).trip = n.trip := rfl
@[simp] theorem tickNode_flt : (tickNode n).flt = n.flt := rfl
@[simp] theorem tickNode_pins : (tickNode n).pins = n.pins := rfl
@[simp] theorem tickNode_clock : (tickNode n).clock = n.clock + 1 := rfl
@[simp] theorem tickNode_phase : (tickNode n).startup.phase = n.startup.phase := rfl
@[simp] theorem tickNode_standing : (tickNode n).startup.standing = n.startup.standing := rfl

/-- An operation of the image's read has at most its 20 ms, and no more operations begin than the image
has bytes (R189, log 28). -/
theorem ImageRead.tick_bounds (ends : Bool) (r : ImageRead) (hl : r.left ≤ 20) (hb : 1 ≤ r.begun)
    (hm : r.begun ≤ 90) :
    (r.tick ends).left ≤ 20 ∧ 1 ≤ (r.tick ends).begun ∧ (r.tick ends).begun ≤ 90 := by
  unfold ImageRead.tick imageOpsMost
  split
  · rename_i h
    simp only [Bool.and_eq_true, decide_eq_true_eq] at h
    exact ⟨le_refl _, by simp, h.2⟩
  · exact ⟨le_trans (Nat.sub_le _ _) hl, hb, hm⟩

/-! ## A timer that has not run out (log 2) -/

@[simp] theorem timerOut_iff (t : Option Nat) : timerOut t = true ↔ t = some 0 := by
  unfold timerOut
  simp

/-- The row of a timer that is stopped, or has been started again, does nothing (R32, R35, R39, R146, R147,
R153). -/
theorem beaconExpiry_running (c : Settings) (h : n.memb.beaconTimer ≠ some 0) : beaconExpiry c n = n := by
  simp [beaconExpiry, h]

theorem livenessExpiry_running (c : Settings) (w : Neighbour) (h : (n.memb.record w).timer ≠ some 0) :
    livenessExpiry c w n = n := by
  simp [livenessExpiry, h]

theorem seekExpiry_running (c : Settings) (h : n.memb.seekTimer ≠ some 0) : seekExpiry c n = n := by
  simp [seekExpiry, h]

theorem graceExpiry_running (c : Settings) (h : n.memb.graceTimer ≠ some 0) : graceExpiry c n = n := by
  simp [graceExpiry, h]

theorem moveExpiry_running (c : Settings) (h : n.gap.timer ≠ some 0) : moveExpiry c n = n := by
  simp [moveExpiry, h]

theorem retractExpiry_running (c : Settings) (h : n.gap.timer ≠ some 0) : retractExpiry c n = n := by
  simp [retractExpiry, h]

theorem paramTimeout_running (c : Settings) (h : n.gap.opTimer ≠ some 0) : paramTimeout c n = n := by
  have : timerOut n.gap.opTimer = false := by simpa [timerOut] using h
  simp [paramTimeout, this]

end Sys2Proof.Machine
end

