-- ==== Sys2Proof/Tests/Slice0.lean ====
section
/-! SUPPORT. The model's own tests: an ill-formed command for each check, one small step for each
command, and for each statement's hypotheses a state and operands that meet them together, where a
clause has a range at its bounds. -/

namespace Sys2Proof.Tests

open Sys2Proof Sys2Proof.Machine

set_option maxRecDepth 20000
set_option Elab.async false

/-! ## Small states -/

/-- The body of a configuration image of station 5, between stations 4 and 6, with the route HOLD and
trip lines 0 to 2 enabled: RISING, FALLING, HIGH and, not enabled, LOW. -/
def imageBody : List Byte :=
  [3, 4, 6] ++ natBytes 1000 ++ natBytes 6000 ++ natBytes 500 ++ natBytes 1000 ++ natBytes 500 ++ [4] ++
  natBytes 100 ++ natBytes 500 ++ natBytes 300 ++ natBytes 1000 ++ natBytes 2000 ++ natBytes 3000 ++
  natBytes 4000 ++ natBytes 5000 ++ natBytes 6000 ++ natBytes 7000 ++ natBytes 200 ++ natBytes 50 ++ [20] ++
  natBytes 500 ++ natBytes 1000 ++ natBytes 20000 ++ natBytes 30000 ++ [5, 4] ++ natBytes 200 ++
  [1, 3, 0] ++ [0x80, 0x81, 0x82, 0x03] ++ [1, 25, 0, 0, 0] ++ List.replicate 25 0

/-- The image with its check. -/
def image : List Byte := imageBody ++ halfBytes (checkOf imageBody)

/-- A schedule with a profile of one entry. -/
def sched : Schedule :=
  { entryTarget := 2000, exitTarget := 1500, threadGap := 25000, rollGap := 15000, gapMin := 10000
    gapMax := 30000, forceLimit := 20000, offGauge := 40, pclass := 7, ffAllowed := true
    monitorAllowed := true, profile := [(1, 50)] }

/-- A frame under way, so that what is offered stays in the insert queue. -/
def onLink : Sending :=
  { frame := { kind := .beacon, source := 5, dest := 31, tag := 0, hop := 0, objection := false
               payload := [3, 1, 0, 1, 0, 0, 0] }, tracked := false }

/-- Station 5 running in a stand state and JOINED, with schedule 1 ACTIVE and 2 LOADED, the loop closed
and a frame under way. -/
def at_ (stand : StandState) : State :=
  let n := Node.powerOn { Pins.initial with carrier := true, loopClosed := true } .running true 0
  { settings := { station := 5, writeProtect := false, config := configOf image }
    paramMem := []
    pending := []
    node := { n with
      ring := { n.ring with sending := some onLink }
      memb := { n.memb with
        ring := .joined, lockOk := true, claimOk := true, neighboursOk := true
        beaconTimer := some 5
        upstream := { NeighbourRec.powerOn with mark := .live, timer := some 20 }
        downstream := { NeighbourRec.powerOn with mark := .live, timer := some 1 } }
      seq := { n.seq with stand := stand }
      sched := { n.sched with slots := ⟨.active 1 sched, .loaded 2 sched, .empty, .empty⟩ }
      gap := { n.gap with base := some 15000, reference := 15000, servoEn := true } } }

/-- A state with its node changed. -/
def upd (s : State) (f : Node → Node) : State := { s with node := f s.node }

/-- A state with its configuration changed. -/
def cfg (s : State) (f : NodeConfig → NodeConfig) : State :=
  { s with settings := { s.settings with config := f s.settings.config } }

/-- Every running timer has run out, and the clock stands at 1,000. -/
def ranOut (s : State) : State :=
  let zero : Option Nat → Option Nat := Option.map (fun _ => 0)
  upd s (fun n => { n with
    clock := 1000
    memb := { n.memb with
      beaconTimer := zero n.memb.beaconTimer, seekTimer := zero n.memb.seekTimer
      graceTimer := zero n.memb.graceTimer
      upstream := { n.memb.upstream with timer := zero n.memb.upstream.timer }
      downstream := { n.memb.downstream with timer := zero n.memb.downstream.timer } }
    gap := { n.gap with timer := zero n.gap.timer, opTimer := zero n.gap.opTimer } })

/-- In a ring state. -/
def ringAt (m : RingState) (s : State) : State :=
  upd s (fun n => { n with memb := { n.memb with ring := m } })

/-- With frames out: their tags and kinds, their transmission ended at 0. -/
def out (es : List (Byte × FrameKind)) (s : State) : State :=
  upd s (fun n => { n with ring := { n.ring with
    outstanding := es.map (fun e => { tag := e.1, kind := e.2, sentAt := some 0 }) } })

/-- The state after a command. -/
def after (i : Instr) (s : State) : State :=
  match exec i s with
  | .next t => t
  | _ => State.reset

/-- The payloads in the insert queue. -/
def sent (s : State) : List (List Byte) := s.node.ring.insertQueue.map (·.payload)

/-- A header of a request by station 25, which is on the authority list. -/
def hdr : Header := { source := 25, dest := 5, tag := 9 }

/-- The header of a frame to ALL from the upstream neighbour. -/
def up : Header := { source := 4, dest := 31, tag := 9 }

/-- The header of a frame to ALL from the downstream neighbour. -/
def down : Header := { source := 6, dest := 31, tag := 9 }

/-- An open gauge segment from position 0. -/
def seg0 : OpenSegment :=
  { number := 7, index := 0, spanStart := 0, coil := 3, head := true, weld := false, good := 2
    sum := 3010, suspect := 0 }

/-- A BEACON of a stand in ROLLING with strip present. -/
def beacon0 : BeaconPayload :=
  { standIndex := 4, standState := 5, flags := 1, scheduleId := 1, lastClosed := 0, originStation := 0 }

/-- A SEG whose record is due 500 mm before its remaining distance. -/
def segment (number : Half) (flags : Byte) (remaining : Half) : SegPayload :=
  { number := number, coil := 3, deviation := 100, sampleCount := 5, flags := flags
    remaining := remaining, scheduleId := 1, standIndex := 2 }

/-! ## Well-formedness: an ill-formed command for each check -/

theorem test_wf_source :
    Instr.wf (.slotFree { source := 0, dest := 5, tag := 0 } 1) = false ∧
    Instr.wf (.slotFree { source := 31, dest := 5, tag := 0 } 1) = false := by decide

theorem test_wf_destination :
    Instr.wf (.tripReceived { source := 4, dest := 0, tag := 0 } ⟨4, 2, 1, 0, 0⟩) = false ∧
    Instr.wf (.tripReceived { source := 4, dest := 32, tag := 0 } ⟨4, 2, 1, 0, 0⟩) = false := by decide

theorem test_wf_claim :
    Instr.wf (.claimOwnSource ⟨31, 0, 33, false, 3⟩) = false ∧
    Instr.wf (.claimOwnSource ⟨0, 0, 32, false, 3⟩) = false := by decide

theorem test_wf_image : Instr.wf (.configReadEnd (.delivered [0])) = false := by decide

theorem test_wf_record : Instr.wf (.fillComplete (.delivered [0])) = false := by decide

theorem test_wf_frame_length :
    Instr.wf (.frameArrival (List.replicate 8 0)) = false ∧
    Instr.wf (.frameArrival (List.replicate 58 0)) = false := by decide

theorem test_wf_value_length :
    Instr.wf (.objectWrite hdr 7 (List.replicate 17 0)) = false := by decide

theorem test_wf_section_length :
    Instr.wf (.schedSection hdr 3 1 []) = false ∧
    Instr.wf (.schedSection hdr 3 2 (List.replicate 26 0)) = false := by decide

theorem test_wf_station_clear : Instr.wf (.tripClearStation hdr 31) = false := by decide

theorem test_wf_admits :
    Instr.wf (.frameArrival (List.replicate 57 0)) = true ∧
    Instr.wf (.schedSection hdr 3 2 (List.replicate 25 0)) = true ∧
    Instr.wf (.fillComplete .stored) = true ∧ Instr.wf (.tripClearAll hdr) = true := by decide

/-- No row of the table gives bits. -/
theorem test_no_word_spells_a_command : decodeTableWord 16 0 = none := rfl

/-! ## Layouts -/

/-- The check of the digits 1 to 9 (R4's polynomial, start value and bit order). -/
theorem test_check_of_digits :
    checkOf [0x31, 0x32, 0x33, 0x34, 0x35, 0x36, 0x37, 0x38, 0x39] = 0x29B1 := by decide +kernel

theorem test_image_accepted : image.length = 90 ∧ imageAccepted 5 image = true := by decide +kernel

/-! ## One small step of each command -/

theorem test_resetAssert :
    let t := after (.resetAssert .porst) (at_ .rolling)
    t.node.startup.phase = .inReset ∧ t.node.gap.reference = 0 ∧ t.node.gap.servoEn = false ∧
    t.node.ring.sending = none ∧ t.node.switchOpen t.settings = true := by decide +kernel

theorem test_resetEnd :
    let t := after (.resetEnd 30 true) (after (.resetAssert .hrst) (at_ .rolling))
    t.settings.station = 30 ∧ t.settings.writeProtect = true ∧ t.node.startup.phase = .reading ∧
    t.node.startup.cause = .hard ∧ t.node.seq.stand = .starting ∧
    (after (.resetEnd 31 true) (at_ .rolling)).node.startup.phase = .invalid := by decide +kernel

theorem test_configReadEnd :
    let t := after (.configReadEnd (.delivered image)) (after (.resetEnd 5 false) State.reset)
    t.node.seq.stand = .quiet ∧ t.node.gap.reference = 20000 ∧ t.node.gap.timer = some 500 ∧
    t.node.gap.servoEn = true ∧ memRead t.paramMem 0 = 3 ∧ memWf t.paramMem = true ∧
    (after (.configReadEnd .stored) State.reset).node.startup.phase = .invalid := by decide +kernel

/-- The band and the tilt mark at acceptance: the accepted edges and limit judge what the samples left; with
no force sample taken the band stays 0, also below a first edge of 0. -/
theorem test_configReadEnd_band :
    let s := upd (after (.resetEnd 5 false) State.reset) (fun n => { n with meas := { n.meas with
      forceOS := ⟨2000, true⟩, band := 7, forceTaken := true, posDS := ⟨201, true⟩ } })
    let t := after (.configReadEnd (.delivered image)) s
    let edge0 : NodeConfig := { s.settings.config with bandEdges := [0, 1, 2, 3, 4, 5, 6] }
    t.node.meas.band = 2 ∧ t.node.meas.tiltMark = true ∧ t.node.meas.loadOn = true ∧
    t.node.meas.forceTaken = false ∧ (Meas.powerOn.accepted edge0).band = 0 ∧
    (({ Meas.powerOn with forceTaken := true } : Meas).accepted edge0).band = 1 ∧
    (after (.forceSample .operator true 0) State.reset).node.meas.forceTaken = true := by decide +kernel

/-- An operation of the image's read has its 20 ms, and at most 90 begin (R189, log 28). -/
theorem test_imageRead :
    State.reset.node.startup.imageRead = some ⟨20, 1⟩ ∧
    ImageRead.tick false ⟨20, 1⟩ = ⟨19, 1⟩ ∧ ImageRead.tick true ⟨5, 89⟩ = ⟨20, 90⟩ ∧
    ImageRead.tick true ⟨5, 90⟩ = ⟨4, 90⟩ ∧
    (let s := upd State.reset (fun n => { n with startup := { n.startup with imageRead := some ⟨0, 3⟩ } })
     expiries s.settings s.node = [.configReadTimeout]) := by decide +kernel

theorem test_configReadTimeout :
    (after .configReadTimeout State.reset).node.startup.phase = .invalid ∧
    after .configReadTimeout (at_ .quiet) = at_ .quiet := by decide +kernel

theorem test_standingCondition :
    let s := upd (at_ .quiet) (fun n => { n with startup := { n.startup with standing := [.line 0] } })
    let t := after (.standingCondition (.line 0)) s
    t.node.seq.stand = .tripped ∧ t.node.trip.active = some ⟨5, 3, 1, 0, 0⟩ ∧
    t.node.startup.standing = [] ∧ t.node.gap.reference = 30000 := by decide +kernel

/-- A read of IDENT, byte by byte from Tables 12-2 to 12-4: the reply, and the frame forwarded. -/
theorem test_frameArrival :
    let body : List Byte := [6, 1, 5, 9, 3, 0, 3, 0, 0, 0]
    let t := after (.frameArrival (body ++ halfBytes (checkOf body))) (at_ .quiet)
    sent t = [[9, 0, 0, 7, 0x0F, 0x3A, 0x84, 0x40, 0x01, 5, 3]] ∧
    t.node.ring.passBuffer.map (·.hop) = [4] := by decide +kernel

theorem test_frameArrival_badCheck :
    let t := after (.frameArrival [6, 1, 5, 9, 3, 0, 3, 0, 0, 0, 0, 0]) (at_ .quiet)
    t.node.flt.counters.head? = some 1 ∧ t.node.ring.passBuffer = [] ∧
    sent t = [[1, 1, 1, 0, 0, 0, 1]] := by decide +kernel

theorem test_ownFrameReturn :
    let t := after (.ownFrameReturn 9) (out [(8, .beacon), (9, .seg), (10, .mark)] (at_ .quiet))
    t.node.ring.outstanding.map (·.tag) = [10] ∧ t.node.ring.unmatchedCount = 0 := by decide +kernel

theorem test_claimOwnSource :
    let s := out [(9, .claim)] (ringAt .claiming (at_ .quiet))
    (after (.claimOwnSource ⟨31, 9, 5, false, 3⟩) s).node.memb.ring = .seeking ∧
    (after (.claimOwnSource ⟨31, 9, 5, false, 3⟩) s).node.memb.seekTimer = some 125 ∧
    (after (.claimOwnSource ⟨31, 9, 5, true, 3⟩) s).node.memb.ring = .conflict := by decide +kernel

theorem test_transmitEnd :
    let s := after .beaconTimerExpiry (ranOut (at_ .quiet))
    let t := after .transmitEnd s
    t.node.ring.insertQueue = [] ∧ t.node.ring.tagCounter = 1 ∧
    t.node.ring.outstanding.map (·.kind) = [.beacon] ∧
    (after .transmitEnd t).node.ring.sending = none := by decide +kernel

theorem test_returnTimeout :
    let s := upd (ranOut (out [(9, .seg)] (at_ .rolling))) (fun n => { n with
      ring := { n.ring with lossCount := 2 } })
    let t := after .returnTimeout s
    t.node.ring.outstanding = [] ∧ t.node.memb.ringOpen = true ∧
    t.node.memb.breakRecord = .ringOpen ∧ t.node.seq.holds.ring = true := by decide +kernel

theorem test_carrierLock :
    let s := ringAt .dark (upd (at_ .quiet) (fun n => { n with
      memb := { n.memb with carrierLocked := false } }))
    let t := after .carrierLock s
    t.node.memb.ring = .claiming ∧ t.node.memb.lockOk = true ∧ sent t = [[3]] := by decide +kernel

theorem test_carrierLoss :
    let s := upd (at_ .rolling) (fun n => { n with memb := { n.memb with carrierLocked := true } })
    let t := after .carrierLoss s
    t.node.memb.ring = .broken ∧ t.node.memb.breakRecord = .link ∧ t.node.seq.holds.ring = true ∧
    t.node.memb.graceTimer = some 200 ∧ t.node.memb.neighboursOk = false := by decide +kernel

theorem test_beaconReceived :
    let t := after (.beaconReceived down beacon0) (at_ .threading)
    t.node.seq.stand = .rolling ∧ t.node.memb.downstream.timer = some 20 ∧
    t.node.gap.base = some 15000 := by decide +kernel

theorem test_beaconTimerExpiry :
    sent (after .beaconTimerExpiry (ranOut (at_ .rolling))) = [[3, 5, 1, 1, 0, 0, 0]] ∧
    sent (after .beaconTimerExpiry (at_ .rolling)) = [] := by decide +kernel

theorem test_seekTimerExpiry :
    let s := upd (ringAt .seeking (at_ .quiet)) (fun n => { n with memb := { n.memb with
      seekTimer := some 1, upstream := NeighbourRec.powerOn } })
    let t := after .seekTimerExpiry (ranOut s)
    t.node.memb.ring = .joined ∧ t.node.memb.upstream.mark = .lost ∧
    t.node.memb.downstream.mark = .live := by decide +kernel

theorem test_livenessTimerExpiry :
    let t := after (.livenessTimerExpiry .upstream) (ranOut (at_ .rolling))
    t.node.memb.upstream.mark = .lost ∧ t.node.seq.holds.neighbour = true ∧
    t.node.seq.stand = .rolling ∧ sent t = [[11, 2, 5, 0, 0, 0, 1]] := by decide +kernel

/-- A row that waited while its timer was started again does nothing (R35, R39, R146). -/
theorem test_stale_rows :
    (let s := after (.beaconReceived up beacon0) (ranOut (at_ .rolling))
     (after (.livenessTimerExpiry .upstream) s).node.memb.upstream.mark = .live ∧
      (after (.livenessTimerExpiry .downstream) s).node.memb.downstream.mark = .lost) ∧
    (let s := ranOut (upd (at_ .rolling) (fun n => { n with
      memb := { n.memb with graceTimer := some 1 }
      seq := { n.seq with holds := ⟨true, false, false, false⟩ } }))
     let cleared := upd s (fun n => { n with
      memb := { n.memb with breakRecord := .none, graceTimer := none }, seq := { n.seq with holds := Holds.empty } })
     let again := upd (out [(9, .seg)] cleared) (fun n => { n with ring := { n.ring with lossCount := 2 } })
     (after .ringBreakGraceExpiry (after .returnTimeout again)).node.seq.stand = .rolling ∧
      (after .ringBreakGraceExpiry s).node.seq.stand = .tripped) := by decide +kernel

theorem test_ringBreakGraceExpiry :
    let s := upd (at_ .rolling) (fun n => { n with
      memb := { n.memb with graceTimer := some 1 }
      seq := { n.seq with holds := ⟨true, false, false, false⟩ } })
    let t := after .ringBreakGraceExpiry (ranOut s)
    t.node.seq.stand = .tripped ∧ t.node.trip.active = some ⟨5, 3, 2, 10, 0⟩ := by decide +kernel

theorem test_objectWrite :
    sent (after (.objectWrite hdr 200 []) (at_ .quiet)) = [[9, 200, 1, 0]] ∧
    sent (after (.objectWrite { hdr with source := 2 } 2 [1]) (at_ .quiet)) = [[9, 2, 2, 0]] ∧
    sent (after (.objectWrite hdr 4 [2, 0]) (at_ .quiet)) = [[9, 4, 4, 0]] := by decide +kernel

/-- ACTIVE_SCHEDULE and the slots of SLOT_STATUS carry their items with a presence byte (R137, R197). -/
theorem test_reads_of_slots :
    readActiveSchedule (at_ .quiet).node =
      [0, 1, 1, 1, 7, 208, 5, 220, 97, 168, 58, 152, 39, 16, 117, 48, 78, 32, 0, 40, 7, 3, 1] ∧
    readActiveSchedule State.reset.node = List.replicate 23 0 ∧
    slotFields (.loading ⟨3, 25, 2, [[1]], 400⟩) = [1, 0, 3, 1, 25, 2, 1, 0, 0] ∧
    slotFields (.active 1 sched) = [4, 0, 1, 0, 0, 0, 0, 1, 1] := by decide +kernel

theorem test_standCommandPreset :
    let t := after (.standCommandPreset hdr) (at_ .quiet)
    t.node.seq.stand = .preset ∧ t.node.gap.reference = 25000 ∧ t.node.dir.table.length = 1 ∧
    sent t = [] := by decide +kernel

theorem test_standCommandQuiet :
    let t := after (.standCommandQuiet hdr) (after (.standCommandPreset hdr) (at_ .quiet))
    t.node.seq.stand = .quiet ∧ t.node.gap.reference = 20000 ∧ t.node.dir.table = [] ∧
    sent t = [[9, 2, 6, 0], [9, 2, 0, 0]] := by decide +kernel

theorem test_nextSchedule :
    let t := after (.nextSchedule hdr 2) (at_ .rolling)
    t.node.sched.slots.x1 = .pending 2 sched ∧ sent t = [[9, 4, 0, 0], [4, 1, 2]] ∧
    sent (after (.nextSchedule hdr 9) (at_ .rolling)) = [[9, 4, 4, 0]] := by decide +kernel

theorem test_slotFree :
    (after (.slotFree hdr 2) (at_ .rolling)).node.sched.slots.x1 = .empty ∧
    sent (after (.slotFree hdr 1) (at_ .rolling)) = [[9, 6, 3, 0]] ∧
    sent (after (.slotFree hdr 3) (at_ .rolling)) = [[9, 6, 4, 0]] := by decide +kernel

theorem test_gapTrim :
    (after (.gapTrim hdr 1000) (at_ .rolling)).node.gap.gapTrim = 1000 ∧
    (after (.gapTrim hdr 1000) (at_ .rolling)).node.gap.reference = 16000 ∧
    sent (after (.gapTrim hdr 1001) (at_ .rolling)) = [[9, 7, 4, 0]] := by decide +kernel

theorem test_ffEnable :
    (after (.ffEnable hdr 1) (at_ .rolling)).node.gap.ffEnable = true ∧
    sent (after (.ffEnable hdr 2) (at_ .rolling)) = [[9, 8, 4, 0]] := by decide +kernel

theorem test_monitorEnable :
    (after (.monitorEnable { hdr with dest := 31 } 1) (at_ .rolling)).node.gap.monitorEnable = true ∧
    sent (after (.monitorEnable hdr 1) (at_ .rolling)) = [[9, 9, 0, 0], [9, 1, 1]] := by decide +kernel

theorem test_coefEntryWrite :
    let t := after (.coefEntryWrite hdr 63 7 0xF830 1000) (at_ .quiet)
    t.node.gap.queue = [.write ⟨⟨63, 7⟩, -2000, 1000⟩ true] ∧ t.node.gap.opTimer = some 20 ∧
    sent (after (.coefEntryWrite hdr 64 0 0 0) (at_ .quiet)) = [[9, 13, 4, 0]] := by decide +kernel

theorem test_coefEntryRead :
    let t := after (.coefEntryRead hdr 63 7) (at_ .quiet)
    t.node.gap.queue = [.fill ⟨63, 7⟩] ∧ t.node.dir.table.length = 1 ∧ sent t = [] := by decide +kernel

/-- A tripped stand that holds the origins of stations 5 and 4. -/
def tripped : State :=
  upd (after (.servoFlt true) (at_ .rolling)) (fun n => { n with
    trip := { n.trip with pending := some ⟨4, 2, 1, 0, 0⟩ }
    ring := { n.ring with insertQueue := [] } })

theorem test_tripClearStation :
    let t := after (.tripClearStation hdr 5) tripped
    t.node.trip.active = some ⟨4, 2, 1, 0, 0⟩ ∧ t.node.trip.pending = none ∧
    t.node.trip.clearsTaken = 1 ∧ sent t = [[9, 15, 0, 0]] := by decide +kernel

theorem test_tripClearAll :
    let t := after (.tripClearAll hdr) tripped
    t.node.trip.active = none ∧ t.node.trip.pending = none ∧ t.node.seq.stand = .tripped ∧
    sent (after (.tripClearStation hdr 0) tripped) = [[9, 15, 4, 0]] := by decide +kernel

theorem test_faultCountsClear :
    (after (.faultCountsClear hdr 28 0) tripped).node.flt.counters.getD 27 9 = 0 ∧
    tripped.node.flt.counters.getD 27 9 = 1 ∧
    sent (after (.faultCountsClear hdr 33 0) tripped) = [[9, 17, 4, 0]] := by decide +kernel

theorem test_faultSummaryClear :
    tripped.node.flt.first.isSome = true ∧
    (after (.faultSummaryClear hdr 0) tripped).node.flt.first = none := by decide +kernel

theorem test_nodeReset :
    let t := after (.nodeReset hdr 1) (at_ .ready)
    t.node.seq.stand = .quiet ∧ t.node.startup.cause = .soft ∧ t.node.startup.softResets = 1 ∧
    t.node.memb.ring = .joined ∧ sent t = [] ∧ t.node.ring.flushedCount = 1 := by decide +kernel

theorem test_schedOpen :
    let t := after (.schedOpen hdr 3 2) (at_ .quiet)
    t.node.sched.slots.x2 = .loading ⟨3, 25, 2, [], 1000⟩ ∧ sent t = [[9, 255, 0, 0]] ∧
    sent (after (.schedOpen hdr 3 3) (at_ .quiet)) = [[9, 255, 4, 0]] := by decide +kernel

/-- The first section of a schedule with the numbers of `sched`. -/
def section1 : List Byte :=
  natBytes 2000 ++ natBytes 1500 ++ natBytes 25000 ++ natBytes 15000 ++ natBytes 10000 ++
  natBytes 30000 ++ natBytes 20000 ++ natBytes 40 ++ [7, 3]

/-- The second section: one entry, offset 1 and trim 50. -/
def section2 : List Byte := [1, 1, 0, 50]

/-- Slot 2 loading schedule 3 from station 25, with some sections received. -/
def loading (declared : Nat) (sections : List (List Byte)) : State :=
  upd (at_ .quiet) (fun n => { n with sched := { n.sched with
    slots := { n.sched.slots with x2 := .loading ⟨3, 25, declared, sections, 400⟩ } } })

theorem test_schedSection :
    let t := after (.schedSection hdr 3 1 section1) (loading 2 [])
    t.node.sched.slots.x2 = .loading ⟨3, 25, 2, [section1], 1000⟩ ∧
    (after (.schedSection hdr 3 2 section2) (loading 2 [])).node.sched.slots.x2 = .empty := by
  decide +kernel

theorem test_schedClose :
    let s := loading 2 [section1, section2]
    (after (.schedClose hdr 3 (checkOf (section1 ++ section2))) s).node.sched.slots.x2 =
      .loaded 3 sched ∧
    sent (after (.schedClose hdr 3 0) s) = [[9, 255, 7, 0]] := by decide +kernel

theorem test_schedIdleTimeout :
    let s := upd (loading 2 []) (fun n => { n with sched := { n.sched with
      slots := { n.sched.slots with x2 := .loading ⟨3, 25, 2, [], 0⟩ } } })
    let t := after (.schedIdleTimeout 2) s
    t.node.sched.slots.x2 = .empty ∧ t.node.sched.loadTimeouts = 1 ∧
    (after (.schedIdleTimeout 2) (loading 2 [])).node.sched.loadTimeouts = 0 := by decide +kernel

theorem test_segReceived :
    let t := after (.segReceived up (segment 7 0 2000)) (at_ .rolling)
    t.node.track.arrival.map (·.due) = [mm 1500] ∧ t.node.track.expected = some 8 ∧
    (after (.segReceived down (segment 7 0 2000)) (at_ .rolling)).node.track.counts.foreign = 1 := by
  decide +kernel

/-- A baseline of MARK 4 at count 0 and the ENTRY count at 4,100 mm, in ROLLING. -/
def marked (count : Pos) : State :=
  upd (at_ .rolling) (fun n => { n with
    track := { n.track with baseline := some (4, 0) }, meas := { n.meas with entryCount := count } })

theorem test_markReceived :
    (after (.markReceived up ⟨8, 1000, 4, 2⟩) (marked 4100)).node.seq.stand = .rolling ∧
    (after (.markReceived up ⟨8, 1000, 4, 2⟩) (marked 4100)).node.track.comparison =
      some (4100, 100) ∧
    (after (.markReceived up ⟨8, 1000, 4, 2⟩) (marked 4101)).node.seq.stand = .tripped := by
  decide +kernel

theorem test_tripReceived :
    let t := after (.tripReceived up ⟨4, 2, 2, 22, 9⟩) (at_ .rolling)
    t.node.seq.stand = .tripped ∧ t.node.trip.active = some ⟨4, 2, 2, 22, 9⟩ ∧
    t.node.ring.tripSlot = none ∧ t.node.switchOpen t.settings = false := by decide +kernel

/-- MEASURING asserted in a stand state. -/
def measuring (stand : StandState) : State :=
  upd (at_ stand) (fun n => { n with pins := { n.pins with measuring := true } })

theorem test_gaugeSample :
    (after (.gaugeSample 8001 true) (measuring .rolling)).node.meas.fifo = [⟨0, 8000, false⟩] ∧
    (after (.gaugeSample 1500 true) (measuring .quiet)).node.meas.idleDiscards = 1 := by decide +kernel

theorem test_measuringChange :
    sent (after (.measuringChange false) (measuring .rolling)) = [[13, 1, 5, 0, 0, 0, 1]] ∧
    sent (after (.measuringChange false) (measuring .quiet)) = [] := by decide +kernel

/-- An open segment and samples at positions along the strip. -/
def sampling (stamps : List Pos) : State :=
  upd (at_ .rolling) (fun n => { n with
    track := { n.track with openSeg := some seg0, running := true, nextNumber := 8 }
    meas := { n.meas with fifo := stamps.map (fun p => ⟨p, 1520, true⟩) } })

theorem test_sampleTake :
    (after .sampleTake (sampling [mm 600, mm 700])).node.track.openSeg =
      some { seg0 with good := 3, sum := 4530 } ∧
    (after .sampleTake (sampling [mm 1500, mm 1600])).node.track.exitTrack.map (·.deviation) =
      [some 5] ∧
    (after .sampleTake (sampling [mm 1500, mm 1600])).node.track.lastClosed = 7 := by decide +kernel

theorem test_forceSample :
    let t := after (.forceSample .operator true 500) (at_ .ready)
    t.node.seq.stand = .threading ∧ t.node.gap.base = some 25000 ∧
    (after (.forceSample .operator true 500) (at_ .quiet)).node.seq.stand = .tripped ∧
    (after (.forceSample .drive false 0) (at_ .rolling)).node.seq.stand = .tripped := by decide +kernel

theorem test_positionSample :
    let s := upd (after (.standCommandPreset hdr) (at_ .quiet)) (fun n => { n with
      meas := { n.meas with posOS := ⟨25000, true⟩ } })
    let t := after (.positionSample .drive true 25040) s
    t.node.seq.stand = .ready ∧ t.node.gap.supervision = .idle ∧ sent t = [[9, 2, 0, 0]] ∧
    (after (.positionSample .drive true 25042) s).node.seq.stand = .preset := by decide +kernel

theorem test_encoderPulse :
    (after (.encoderPulse .entry true false) (at_ .quiet)).node.meas.entryCount = 1 ∧
    (after (.encoderPulse .entry false true) (at_ .quiet)).node.meas.entryCount = 0 - 1 ∧
    (after (.encoderPulse .entry true true) (at_ .quiet)).node.meas.entryErrors = 1 := by decide +kernel

theorem test_moveTimerExpiry :
    let s := after (.standCommandPreset hdr) (at_ .quiet)
    (after .moveTimerExpiry (ranOut s)).node.seq.stand = .quiet ∧
    (after .moveTimerExpiry (ranOut s)).node.gap.moves.timedOut = 1 ∧
    (after .moveTimerExpiry s).node.seq.stand = .preset := by decide +kernel

theorem test_retractTimerExpiry :
    let t := after .retractTimerExpiry (ranOut tripped)
    t.node.seq.stand = .lockout ∧ t.node.gap.supervision = .retractFailed ∧
    (after .retractTimerExpiry tripped).node.seq.stand = .tripped := by decide +kernel

/-- A coefficient record in range at its bounds. -/
def coef : CoefRecord := { tag := ⟨63, 7⟩, ff := -2000, mon := 1000 }

theorem test_fillComplete :
    let s := after (.coefEntryRead hdr 63 7) (at_ .quiet)
    let t := after (.fillComplete (.delivered coef.bytes)) s
    t.node.gap.cached ⟨63, 7⟩ = some coef ∧ t.node.dir.table = [] ∧
    sent t = [[9, 13, 0, 6, 63, 7, 0xF8, 0x30, 0x03, 0xE8]] ∧
    sent (after (.fillComplete .stored) s) = [[9, 13, 7, 0]] := by decide +kernel

theorem test_coefWriteComplete :
    let t := after .coefWriteComplete (after (.coefEntryWrite hdr 63 7 0xF830 1000) (at_ .quiet))
    memReadBytes t.paramMem coef.tag.offset 9 = coef.bytes ∧ memWf t.paramMem = true ∧
    sent t = [[9, 13, 0, 0]] ∧ t.node.gap.queue = [] := by decide +kernel

theorem test_paramOpTimeout :
    let t := after .paramOpTimeout (ranOut (after (.coefEntryWrite hdr 63 7 0xF830 1000) (at_ .quiet)))
    t.paramMem = [] ∧ t.node.gap.queue = [] ∧ t.node.flt.counters.getD 30 9 = 1 := by decide +kernel

theorem test_tripLineChange :
    let t := after (.tripLineChange 2 true) (at_ .rolling)
    t.node.seq.stand = .tripped ∧ t.node.trip.active = some ⟨5, 3, 1, 2, 0⟩ ∧
    t.node.switchOpen t.settings = true ∧
    (after (.tripLineChange 3 true) (at_ .rolling)).node.seq.stand = .rolling := by decide +kernel

theorem test_loopOpen :
    let t := after .loopOpen (at_ .rolling)
    t.node.seq.stand = .tripped ∧ t.node.trip.active = some ⟨0, 0, 0, 0, 0⟩ ∧
    t.node.trip.loopOpens = 1 := by decide +kernel

/-- TRIPPED with the origins cleared, the retract complete and the loop still open. -/
def cleared : State :=
  upd (after (.tripClearAll hdr) (after .loopOpen (at_ .rolling))) (fun n => { n with
    trip := { n.trip with active := none }, gap := { n.gap with supervision := .retracted } })

theorem test_loopClosing :
    cleared.node.seq.stand = .tripped ∧ (after .loopClosing cleared).node.seq.stand = .quiet ∧
    (after .loopClosing cleared).node.gap.reference = 20000 := by decide +kernel

theorem test_servoFlt :
    let t := after (.servoFlt true) (at_ .rolling)
    t.node.gap.servoEn = false ∧ t.node.seq.stand = .tripped ∧
    t.node.trip.active = some ⟨5, 3, 2, 28, 0⟩ ∧
    (after (.servoFlt true) cleared).node.seq.stand = .lockout := by decide +kernel

/-! ## The hypotheses of each statement, met together

One theorem for each statement of Certificates/Slice0/Obligations.lean that has hypotheses, under its
name; a statement's clauses stand in its order. -/

theorem test_meets_EmptyQueueLetsTimePass :
    (at_ .rolling).pending = [] ∧ (at_ .rolling).live ∧
    (after (.resetAssert .hrst) (at_ .rolling)).pending = [] ∧
    ¬ (after (.resetAssert .hrst) (at_ .rolling)).live := by
  simp only [State.live]
  decide +kernel

/-- A stand in ROLLING with a schedule armed, a coefficient stored, a fill in service and a frame about
to be sent, with a command waiting. -/
def busy : State :=
  { upd (after (.coefEntryRead hdr 1 1) (after (.nextSchedule hdr 2) (sampling [mm 1500, mm 1600])))
      (fun n => { n with track := { n.track with
        counts := { n.track.counts with closed := 0 } } }) with
    paramMem := memWriteBytes [] coef.tag.offset coef.bytes, pending := [.sampleTake] }

/-- A step answers a next state in which no reset is under way. -/
def answers (s : State) : Bool :=
  match step s with
  | .next t => t.node.startup.phase ≠ .inReset
  | _ => false

/-- Ids held at most once, from a list without repetition. -/
theorem ids_once (v : Four Slot) (h : ((listFour v).filterMap Slot.id).Nodup) :
    ∀ id, slotCount (fun x => x.id = some id) v ≤ 1 := by
  intro id
  have e : ∀ l : List Slot, l.countP (fun x => x.id = some id) = (l.filterMap Slot.id).count id := by
    intro l
    induction l with
    | nil => rfl
    | cons x xs ih =>
      cases hx : x.id with
      | none => simp [hx, ih]
      | some k => simp [List.countP_cons, List.count_cons, hx, ih]
  rw [slotCount, e]
  exact List.nodup_iff_count.mp h id

/-- The invariants that StepKeepsMemoryCanonical, StepHandlesEveryFaultEvent, StepKeepsOriginLaw,
StepKeepsSlotLaw, StepKeepsReferenceLaws, StepConservesExitRecords, StepKeepsCacheLaw,
StepKeepsCollectionsBounded and StepServesTransmitLink start from. -/
theorem test_meets_the_laws_that_steps_keep :
    busy.memoryCanonical ∧ busy.settled ∧ busy.countersWhole ∧ busy.originLaw ∧ busy.startupHolds ∧
    busy.slotLaw ∧ busy.gapLaw ∧ busy.trackConserved ∧ busy.cacheLaw ∧ busy.bounded ∧
    busy.linkServed ∧ busy.live ∧ answers busy = true := by
  have ho : busy.node.trip.active = none ∧ busy.node.trip.pending = none ∧ busy.node.trip.dropped = 0 := by
    decide +kernel
  have hv : ∀ x ∈ listFour busy.node.sched.slots, ∀ r ∈ x.record, r.valid = true := by decide +kernel
  have ha : busy.node.sched.active = some (1, sched) := by decide +kernel
  have hr : sched.gapMin ≤ busy.node.gap.reference ∧ busy.node.gap.reference ≤ sched.gapMax ∧
      busy.node.gap.base.isSome = true := by decide +kernel
  have hc : ∀ x ∈ busy.node.gap.cache, x.way0 = none := by decide +kernel
  have hw : busy.node.gap.waiting = none := by decide +kernel
  refine ⟨by unfold State.memoryCanonical; decide +kernel, by unfold State.settled; decide +kernel,
    by unfold State.countersWhole; decide +kernel, ⟨fun h => absurd ho.2.1 h, ?_, fun _ => ho⟩,
    by unfold State.startupHolds; decide +kernel,
    ⟨by decide +kernel, by decide +kernel, by decide +kernel, ids_once _ (by decide +kernel)⟩,
    ⟨hv, fun _ => ⟨by rw [ha]; rfl, hr.2.2⟩, ?_⟩, by unfold State.trackConserved; decide +kernel,
    ⟨?_, by decide +kernel, by decide +kernel, ?_⟩,
    by unfold State.bounded; decide +kernel, by unfold State.linkServed; decide +kernel,
    by unfold State.live; decide +kernel, by decide +kernel⟩
  · intro a p h
    rw [ho.1] at h
    cases h
  · intro _ _ id r h
    rw [ha] at h
    cases h
    exact ⟨hr.1, hr.2.1⟩
  · intro x hx a b h
    rw [hc x hx] at h
    cases h
  · intro _ w h
    rw [hw] at h
    cases h

/-- TRIPPED with two origins of different stations: the laws of the reference and of the origin record. -/
theorem test_meets_StepKeepsReferenceLaws_tripped :
    tripped.live ∧ tripped.node.seq.stand.stopped = true ∧ tripped.retractHeld ∧ tripped.originLaw := by
  have ho : tripped.node.trip.active = some ⟨5, 3, 2, 28, 0⟩ ∧
      tripped.node.trip.pending = some ⟨4, 2, 1, 0, 0⟩ := by decide +kernel
  refine ⟨by unfold State.live; decide +kernel, by decide +kernel,
    fun _ _ => by decide +kernel, by decide +kernel, ?_, by decide +kernel⟩
  intro a p ha hp
  rw [ho.1] at ha
  rw [ho.2] at hp
  cases ha
  cases hp
  decide

/-- A REPLY of the longest payload at the bounds of the header. -/
def longest : Frame :=
  { kind := .reply, source := 30, dest := 31, tag := 255, hop := 32, objection := true
    payload := [1, 2, 0, 44] ++ List.replicate 44 7 }

theorem test_meets_SentFrameIsReadBack :
    (1 ≤ longest.source.toNat ∧ longest.source.toNat ≤ 30 ∧ 1 ≤ longest.dest.toNat ∧
      longest.dest.toNat ≤ 31 ∧ longest.hop ≤ 32 ∧ longest.payload.length ≤ 48 ∧
      payloadAdmitted longest.kind longest.payload = true) ∧
    judgeArrival longest.encode = .intact longest := by decide +kernel

theorem test_meets_StoredCoefficientIsReadBack :
    memWf (memWriteBytes [] 0 [1, 0xFF, 2]) = true ∧ coef.inRange = true ∧
    CoefRecord.inRange ⟨⟨0, 0⟩, 2000, 0⟩ = true := by decide +kernel

theorem test_meets_ResetHoldsTheNode :
    let s := after (.resetAssert .porst) (at_ .quiet)
    ¬ s.live ∧ s.resetLaw ∧ (∀ pin, Instr.loopOpen ≠ .resetAssert pin) ∧
    (∀ station wp, Instr.loopOpen ≠ .resetEnd station wp) ∧ State.reset.resetLaw := by
  have hn : (after (.resetAssert .porst) (at_ .quiet)).node.startup.imageRead = none := by
    decide +kernel
  have hr : State.reset.node.startup.imageRead = some ⟨20, 1⟩ := rfl
  refine ⟨by simp only [State.live]; decide +kernel,
    ⟨fun _ => by decide +kernel, by decide +kernel, fun r h => ?_⟩,
    fun _ h => Instr.noConfusion h, fun _ _ h => Instr.noConfusion h,
    ⟨fun _ => rfl, by decide +kernel, fun r h => ?_⟩⟩
  · rw [hn] at h
    cases h
  · rw [hr] at h
    cases h
    decide

/-- Station 5 with the read of its image under way, the carrier locked and not locked. -/
def reading : State := after (.resetEnd 5 false) (at_ .quiet)

theorem test_meets_AcceptedImageEntersQuiet :
    (reading.node.startup.phase = .reading ∧ reading.settled ∧ reading.node.memb.carrierLocked = true ∧
      imageAccepted reading.settings.station
        (memReadBytes (memTake reading.paramMem 0 90 (.delivered image)) 0 90) = true) ∧
    (State.reset.node.startup.phase = .reading ∧ State.reset.node.memb.carrierLocked = false ∧
      imageAccepted State.reset.settings.station
        (memReadBytes (memTake State.reset.paramMem 0 90 (.delivered image)) 0 90) = true) := by
  simp only [State.settled]
  decide +kernel

theorem test_meets_RefusedOrAbsentImageEndsInvalid :
    (reading.node.startup.phase = .reading ∧ imageAccepted reading.settings.station
      (memReadBytes (memTake reading.paramMem 0 90 .stored) 0 90) = false) ∧
    (at_ .quiet).node.startup.phase ≠ .reading := by decide +kernel

/-- A stand state in which conditions stand after start-up. -/
def standing (stand : StandState) (loop : Bool) : State :=
  upd (at_ stand) (fun n => { n with
    startup := { n.startup with standing :=
      [.load, .servo, .line 0, .line 3, .position .operator, .position .drive, .loopSensedOpen] }
    pins := { n.pins with loopClosed := loop } })

theorem test_meets_StandingConditionsAct :
    ((at_ .quiet).live ∧ (at_ .quiet).node.startup.standing.contains .load = false) ∧
    (∀ k ∈ [Standing.load, .servo, .line 0, .line 3, .position .operator, .position .drive,
        .loopSensedOpen], (standing .quiet true).live ∧ (standing .quiet true).node.untripped ∧
      (standing .quiet true).node.startup.standing.contains k = true) ∧
    ((standing .preset true).node.untripped ∧ (standing .preset true).node.seq.stand = .preset) ∧
    ((standing .quiet true).node.pins.loopClosed = true ∧
      (standing .quiet false).node.pins.loopClosed = false) ∧
    (∀ k ∈ [Standing.load, .servo, .line 0, .line 3, .position .operator, .position .drive,
        .loopSensedOpen], (standing .tripped false).live ∧
      (standing .tripped false).node.startup.standing.contains k = true ∧
      (standing .tripped false).node.seq.stand = .tripped) ∧
    ((standing .tripped false).node.trip.active = none ∧
      (standing .tripped false).node.pins.loopClosed = false ∧ (standing .tripped true).roomFor 1 ∧
      (standing .tripped true).node.trip.recorded 5 = false ∧ tripped.node.trip.recorded 5 = true) := by
  simp only [State.live, State.roomFor, Node.untripped]
  decide +kernel

/-- A body of a frame that names no kind, with its check. -/
def formless : List Byte :=
  [12, 1, 5, 9, 3, 0, 0] ++ halfBytes (checkOf [12, 1, 5, 9, 3, 0, 0])

theorem test_meets_BadFrameIsDiscarded :
    (at_ .quiet).live ∧ judgeArrival [0] = .badCheck ∧ judgeArrival formless = .badForm ∧
    (at_ .quiet).roomFor 1 := by
  simp only [State.live, State.roomFor]
  decide +kernel

/-- A SEG of station 4 to ALL, after `hop` hops. -/
def segFrame (source dest : Byte) (hop : Nat) : Frame :=
  { kind := .seg, source := source, dest := dest, tag := 1, hop := hop, objection := false
    payload := [0, 7, 0, 3, 0, 100, 5, 0, 7, 208, 1, 2] }

/-- Frames in the pass-through buffer. -/
def passing (k : Nat) (s : State) : State :=
  upd s (fun n => { n with ring := { n.ring with
    passBuffer := List.replicate k (segFrame 4 31 1) } })

theorem test_meets_ForeignFrameIsForwarded :
    ((at_ .starting).live ∧ judgeArrival (segFrame 5 31 30).encode = .intact (segFrame 5 31 30) ∧
      (at_ .starting).node.seq.stand = .starting) ∧
    ((at_ .quiet).live ∧ judgeArrival (segFrame 4 6 30).encode = .intact (segFrame 4 6 30) ∧
      (segFrame 4 6 30).source ≠ byte (at_ .quiet).settings.station ∧
      (segFrame 4 6 30).dest ≠ byte (at_ .quiet).settings.station ∧ (segFrame 4 6 30).dest ≠ 31) ∧
    ((ringAt .broken (at_ .quiet)).node.memb.ring ≠ .seeking ∧
      (ringAt .broken (at_ .quiet)).node.memb.ring ≠ .joined) ∧
    (¬ 32 ≤ (segFrame 4 6 30).hop + 1 ∧ (passing 5 (at_ .quiet)).node.ring.passBuffer.length < 6 ∧
      (passing 5 (at_ .quiet)).roomFor 0) ∧
    (judgeArrival (segFrame 4 31 31).encode = .intact (segFrame 4 31 31) ∧
      (segFrame 4 31 31).source ≠ byte (at_ .quiet).settings.station ∧
      (segFrame 4 31 31).dest = 31 ∧ (at_ .quiet).node.memb.ring = .joined ∧
      32 ≤ (segFrame 4 31 31).hop + 1) ∧
    (judgeArrival (segFrame 4 6 31).encode = .intact (segFrame 4 6 31) ∧
      32 ≤ (segFrame 4 6 31).hop + 1) ∧
    ¬ (passing 6 (at_ .quiet)).node.ring.passBuffer.length < 6 := by
  simp only [State.live, State.roomFor]
  decide +kernel

/-- A frame of station 4 to this node. -/
def toUs (kind : FrameKind) (payload : List Byte) : Frame :=
  { kind := kind, source := 4, dest := 5, tag := 1, hop := 30, objection := false, payload := payload }

/-- A frame of each kind that is handed on, with the payload that its row carries, and of the kinds that
have no row. -/
theorem test_meets_ForeignFrameIsForwarded_delivered :
    (∀ f ∈ [toUs .beacon [3, 4, 1, 2, 0, 7, 9], segFrame 4 31 30, toUs .mark [0, 7, 3, 232, 4, 2],
        toUs .trip [4, 2, 1, 0, 0, 7], toUs .wrreq [7, 2, 3, 232], toUs .rdreq [13, 63, 7],
        toUs .sched [1, 3, 2], toUs .sched ([2, 3, 1] ++ section1), toUs .sched [3, 3, 0x29, 0xB1],
        toUs .reply [1, 2, 0, 0], toUs .fault [1, 1, 1, 0, 0, 0, 1], toUs .echo [4, 1, 2],
        toUs .claim [3]],
      judgeArrival f.encode = .intact f ∧ f.source ≠ byte (at_ .rolling).settings.station ∧
      f.hop + 1 < 32) ∧
    ((at_ .rolling).live ∧ (at_ .rolling).node.seq.stand ≠ .starting ∧
      (passing 5 (at_ .rolling)).node.ring.passBuffer.length < 6) ∧
    ([0, 7, 0, 3, 0, 100, 5, 0, 7, 208, 1, 2] : List Byte) =
      halfBytes 7 ++ halfBytes 3 ++ halfBytes 100 ++ [5, 0] ++ halfBytes 2000 ++ [1, 2] ∧
    ([7, 2, 3, 232] : List Byte) = 7 :: byte [(3 : Byte), 232].length :: [3, 232] ∧
    ([3, 3, 0x29, 0xB1] : List Byte) = [3, 3] ++ halfBytes 0x29B1 := by
  simp only [State.live]
  decide +kernel

/-- A read request of an object by station 1. -/
def readFrame (index : Byte) : Frame :=
  { kind := .rdreq, source := 1, dest := 5, tag := 9, hop := 30, objection := false
    payload := [index, 0, 0] }

theorem test_meets_IdentReadsFixedValues :
    ((at_ .quiet).live ∧ judgeArrival (readFrame 0).encode = .intact (readFrame 0) ∧
      (readFrame 0).kind = .rdreq ∧ (readFrame 0).payload = [0, 0, 0] ∧
      (passing 5 (at_ .quiet)).hands (readFrame 0).header ∧ (readFrame 0).hop + 1 < 32 ∧
      (passing 5 (at_ .quiet)).node.ring.passBuffer.length < 6 ∧
      (passing 5 (at_ .quiet)).settings.config.closures.getD 0 .openTo = .openTo ∧
      (passing 5 (at_ .quiet)).roomFor 1) ∧
    (answers busy = true ∧ busy.node.startup.phase ≠ .reading) := by
  simp only [State.live, State.hands, State.roomFor]
  decide +kernel

theorem test_meets_IdentReadsFixedValues_front :
    ∀ station wp rest, busy.pending ≠ .resetEnd station wp :: rest := by
  intro _ _ _ h
  exact Instr.noConfusion (List.cons.inj h).1

theorem test_meets_ResetCauseIsReadAndKept :
    ((at_ .quiet).live ∧ judgeArrival (readFrame 23).encode = .intact (readFrame 23) ∧
      (readFrame 23).kind = .rdreq ∧ (readFrame 23).payload = [23, 0, 0] ∧
      (at_ .quiet).hands (readFrame 23).header ∧ (readFrame 23).hop + 1 < 32 ∧
      (at_ .quiet).node.ring.passBuffer.length < 6 ∧ (at_ .quiet).roomFor 1 ∧
      (at_ .quiet).settings.config.closures.getD 23 .openTo = .openTo) ∧
    ((at_ .ready).live ∧ (at_ .ready).admitsWrite hdr 21 ∧
      (at_ .ready).node.seq.stand.quietish = true) := by
  simp only [State.live, State.hands, State.admitsWrite, State.roomFor]
  decide +kernel

/-- A hold in a stand state, with a trim that came during it. -/
def held (stand : StandState) (holds : Holds) (trim : Int) : State :=
  upd (at_ stand) (fun n => { n with
    seq := { n.seq with holds := holds }, gap := { n.gap with gapTrim := trim } })

theorem test_meets_OwnFrameReturnMatchesEntry :
    ((at_ .starting).live ∧ (at_ .starting).node.seq.stand = .starting) ∧
    (let s := out [(8, .beacon), (9, .seg), (9, .mark)] (at_ .rolling)
     s.live ∧ s.node.seq.stand ≠ .starting ∧ s.node.ring.sending.isSome = true ∧ s.settled ∧
      s.countersWhole ∧
      (∃ older e younger, s.node.ring.outstanding = older ++ e :: younger ∧ e.tag = 9 ∧
        ∀ x ∈ older, x.tag ≠ 9)) ∧
    (let s := out [(8, .beacon)] (at_ .rolling)
     s.live ∧ s.node.memb.ringOpen = false ∧ s.roomFor 0 ∧
      ∀ x ∈ s.node.ring.outstanding, x.tag ≠ 9) ∧
    (judgeArrival (segFrame 5 31 30).encode = .intact (segFrame 5 31 30) ∧
      (segFrame 5 31 30).source = byte (at_ .rolling).settings.station ∧
      (segFrame 5 31 30).kind ≠ .claim) := by
  simp only [State.live, State.roomFor, State.settled, State.countersWhole]
  refine ⟨by decide +kernel, ⟨by decide +kernel, by decide +kernel, by decide +kernel,
    by decide +kernel, by decide +kernel, [⟨8, .beacon, some 0⟩], ⟨9, .seg, some 0⟩, [⟨9, .mark, some 0⟩], by decide +kernel⟩,
    by decide +kernel, by decide +kernel⟩

/-- A return that clears RING_OPEN with the break record OPEN: RING the last cause to go, with and without the
clamp, beside a further cause, and not set; and with the record LINK. -/
def opened (b : BreakRecord) (holds : Holds) (trim : Int) : State :=
  upd (out [(9, .seg)] (held .rolling holds trim)) (fun n => { n with memb := { n.memb with
    ringOpen := true, breakRecord := b, graceTimer := some 7 } })

theorem test_meets_OwnFrameReturnMatchesEntry_heals :
    (∀ s ∈ [opened .ringOpen ⟨true, false, false, false⟩ 60, opened .ringOpen ⟨true, false, false, false⟩ (-6000),
        opened .ringOpen ⟨true, true, false, false⟩ 60, opened .ringOpen Holds.empty 60, opened .link Holds.empty 60],
      s.live ∧ s.node.seq.stand ≠ .starting ∧ s.node.memb.ringOpen = true ∧ s.roomFor 1 ∧
      s.node.ring.outstanding = [⟨9, .seg, some 0⟩] ∧ (∀ e ∈ s.node.ring.outstanding, e.tag ≠ 8) ∧
      s.node.sched.active = some (1, sched) ∧ s.node.gap.base = some 15000) ∧
    (opened .ringOpen ⟨true, false, false, false⟩ 60).node.holdEndsAt Holds.empty = true ∧
    (opened .ringOpen ⟨true, true, false, false⟩ 60).node.holdEndsAt ⟨false, true, false, false⟩ = false ∧
    (opened .ringOpen ⟨true, false, false, false⟩ (-6000)).node.holdEndClamps = true ∧
    (let t := after (.ownFrameReturn 8) (opened .ringOpen ⟨true, false, false, false⟩ 60)
     t.node.memb.breakRecord = .none ∧ t.node.memb.graceTimer = none ∧ t.node.seq.holds = Holds.empty ∧
      t.node.gap.reference = 15060 ∧ t.node.ring.unmatchedCount = 1) ∧
    (after (.ownFrameReturn 9) (opened .link Holds.empty 60)).node.memb.breakRecord = .link := by
  simp only [State.live, State.roomFor]
  decide +kernel

/-- The oldest entry matches: none is older, and the counter of OWN_FRAME_LOST stays. -/
theorem test_meets_OwnFrameReturnMatchesEntry_oldest :
    let s := out [(9, .seg), (9, .mark)] (at_ .rolling)
    s.live ∧ s.node.seq.stand ≠ .starting ∧ s.node.ring.sending.isSome = true ∧ s.settled ∧
    s.countersWhole ∧ s.node.ring.outstanding = [] ++ ⟨9, .seg, some 0⟩ :: [⟨9, .mark, some 0⟩] ∧
    (after (.ownFrameReturn 9) s).node.ring.outstanding = [⟨9, .mark, some 0⟩] ∧
    (after (.ownFrameReturn 9) s).node.flt.counter .ownFrameLost = 0 := by
  simp only [State.live, State.settled, State.countersWhole]
  decide +kernel

theorem test_meets_OwnNumberClaimsAreSorted :
    (let s := out [(9, .claim)] (ringAt .claiming (at_ .quiet))
     s.live ∧ claimInRange ⟨31, 9, 32, false, 3⟩ = true ∧ claimInRange ⟨31, 9, 0, true, 3⟩ = true ∧
      s.node.seq.stand ≠ .starting ∧ s.node.memb.ring = .claiming ∧
      s.node.ring.outstanding = [⟨9, .claim, some 0⟩] ∧ s.node.memb.ringOpen = false ∧
      s.node.ring.sending.isSome = true ∧ s.node.seq.stand.strip = false) ∧
    (let s := passing 5 (at_ .rolling)
     s.live ∧ claimInRange ⟨1, 9, 30, false, 3⟩ = true ∧ (30 : Byte).toNat + 1 < 32 ∧
      s.node.ring.passBuffer.length < 6 ∧ s.node.seq.stand ≠ .starting ∧ claimOut s.node = false ∧
      s.roomFor 1) ∧
    ((at_ .starting).live ∧ (at_ .starting).node.seq.stand = .starting ∧
      (at_ .starting).node.ring.passBuffer.length < 6 ∧ (at_ .starting).roomFor 0) ∧
    (let s := out [(9, .claim)] (ringAt .claiming (at_ .quiet))
     claimOut s.node = true ∧ claimInRange ⟨31, 8, 32, true, 3⟩ = true ∧ s.roomFor 0 ∧
      ∀ e ∈ s.node.ring.outstanding, e.tag ≠ 8) ∧
    (let f : Frame := { toUs .claim [3] with source := 5 }
     judgeArrival f.encode = .intact f ∧ f.source = byte (at_ .quiet).settings.station) := by
  simp only [State.live, State.roomFor]
  decide +kernel

/-- The return of the CLAIM in a strip state, with the route HOLD, and what it raises and offers. -/
theorem test_meets_OwnNumberClaimsAreSorted_raises :
    let s := fun stand => out [(9, .claim)] (ringAt .claiming (at_ stand))
    (∀ stand ∈ [StandState.quiet, .rolling], (s stand).live ∧ (s stand).node.untripped ∧ (s stand).roomFor 2 ∧
      (s stand).node.ring.outstanding = [⟨9, .claim, some 0⟩] ∧ (s stand).node.memb.ringOpen = false) ∧
    ((s .rolling).node.seq.stand.strip = true ∧ (s .quiet).node.seq.stand.strip = false) ∧
    sent (after (.claimOwnSource ⟨31, 9, 5, false, 3⟩) (s .quiet)) =
      [((s .quiet).node.beacon (s .quiet).settings.config).payload] ∧
    (after (.claimOwnSource ⟨31, 9, 5, true, 3⟩) (s .quiet)).node.flt.counter .stationConflict = 1 ∧
    (after (.claimOwnSource ⟨31, 9, 5, true, 3⟩) (s .rolling)).node.seq.stand = .tripped := by
  simp only [State.live, State.roomFor, Node.untripped]
  decide +kernel

/-- A state of the transmit side at the end of a transmission. -/
def sending (m : RingState) (slot : Bool) (pass run : Nat) (queue : Bool) : State :=
  upd (ringAt m (passing pass (at_ .rolling))) (fun n => { n with ring := { n.ring with
    passRun := run
    tripSlot := if slot then some ⟨.trip, 31, [5, 3, 1, 0, 0, 0], false⟩ else none
    insertQueue := if queue then [⟨.seg, 31, [], false⟩] else [] } })

theorem test_meets_TransmitEndSelectsNextFrame :
    ∀ s ∈ [sending .seeking true 1 0 true, sending .claiming true 1 7 true, sending .joined false 1 7 true,
        sending .joined false 1 8 true, sending .dark false 1 8 true, sending .broken false 0 0 true,
        sending .dark false 0 0 true, sending .joined false 0 0 false],
      s.live ∧ s.settled ∧ s.node.ring.sending = some onLink := by
  simp only [State.live, State.settled]
  decide +kernel

/-- At 4 ms, with two losses counted; each entry's transmission ended at the time given. -/
def lossAt (stand : StandState) (route : Route) (times : List (Option Nat)) : State :=
  cfg (upd (at_ stand) (fun n => { n with
    clock := 4
    ring := { n.ring with lossCount := 2, outstanding := times.map (fun k => ⟨9, .seg, k⟩) } }))
    (fun c => { c with route := route })

theorem test_meets_ReturnTimeoutLosesOldestEntry :
    (∀ s ∈ [lossAt .quiet .hold [some 0], lossAt .rolling .hold [some 0], lossAt .rolling .trip [some 0],
        lossAt .rolling .hold [some 0, some 1]],
      s.live ∧ s.node.ring.sending.isSome = true ∧ s.node.ring.lossCount = 2 ∧
      returnLimit s.settings s.node = some 4 ∧ 0 + 4 ≤ s.node.clock ∧ satInc s.node.ring.lossCount = 3 ∧
      s.node.memb.ring = .joined ∧ s.node.memb.ringOpen = false ∧ s.roomFor 2 ∧ s.node.untripped ∧ s.settled ∧
      returnElapsed s.settings s.node ⟨9, .seg, some 1⟩ = false) ∧
    ((after .returnTimeout (lossAt .quiet .hold [some 0])).node.flt.counter .ringBreak = 1 ∧
      (after .returnTimeout (lossAt .rolling .hold [some 0])).node.memb.graceTimer = some 200 ∧
      (after .returnTimeout (lossAt .rolling .trip [some 0])).node.seq.stand = .tripped) ∧
    (let s := out [(9, .claim)] (ranOut (ringAt .claiming (at_ .quiet)))
     s.live ∧ s.node.ring.outstanding = [⟨9, .claim, some 0⟩] ∧ s.node.memb.ring = .claiming ∧
      returnElapsed s.settings s.node ⟨9, .claim, some 0⟩ = true ∧ s.roomFor 1) ∧
    ((at_ .quiet).live ∧ (at_ .quiet).node.ring.outstanding = []) ∧
    (let s := cfg (out [(9, .seg)] (at_ .quiet)) (fun c => { c with returnTimeout := 0 })
     s.live ∧ returnLimit s.settings s.node = none) ∧
    ((lossAt .quiet .hold [none]).node.ring.outstanding = [⟨9, .seg, none⟩] ∧
      (lossAt .quiet .hold [some 1]).node.clock < 1 + 4 ∧
      (after .returnTimeout (lossAt .quiet .hold [some 1])).node.ring.outstanding = [⟨9, .seg, some 1⟩]) := by
  simp only [State.live, State.roomFor, Node.untripped, State.settled]
  decide +kernel

/-- With a carrier status. -/
def carrier (locked : Bool) (s : State) : State :=
  upd s (fun n => { n with memb := { n.memb with carrierLocked := locked } })

theorem test_meets_CarrierChangesMoveRingState :
    ((carrier true (at_ .quiet)).live ∧ (carrier true (at_ .quiet)).node.memb.carrierLocked = true) ∧
    (let s := carrier false (ringAt .dark (at_ .quiet))
     s.live ∧ s.node.memb.carrierLocked = false ∧ s.node.memb.ring = .dark ∧
      s.node.seq.stand ≠ .starting ∧ s.roomFor 0) ∧
    (carrier false (ringAt .broken (at_ .rolling))).node.memb.ring = .broken ∧
    (carrier false (ringAt .conflict (at_ .rolling))).node.memb.ring ≠ .broken ∧
    (∀ m ∈ [RingState.claiming, .seeking, .conflict, .dark],
      (carrier true (ringAt m (at_ .rolling))).live ∧
      (carrier true (ringAt m (at_ .rolling))).node.memb.ring = m) ∧
    ((carrier true (at_ .quiet)).node.seq.stand.strip = false ∧
      (carrier true (at_ .rolling)).node.seq.stand.strip = true ∧
      (carrier true (at_ .rolling)).settings.config.route = .hold ∧
      (carrier true (at_ .rolling)).roomFor 2) ∧
    (let s := cfg (carrier true (at_ .rolling)) (fun c => { c with route := .trip })
     s.settings.config.route = .trip ∧ s.node.untripped ∧ s.node.memb.ring = .joined) := by
  simp only [State.live, State.roomFor, Node.untripped]
  decide +kernel

theorem test_meets_UndeliveredCommandHasNoEffect :
    (at_ .starting).live ∧ deliveredHeader (.tripReceived up ⟨4, 2, 1, 0, 0⟩) = some up ∧
    ¬ (at_ .starting).hands up ∧ ¬ (ringAt .broken (at_ .quiet)).hands up ∧
    ¬ (at_ .quiet).hands { up with dest := 6 } ∧ ¬ (at_ .quiet).hands { up with source := 5 } := by
  simp only [State.live, State.hands]
  decide +kernel

/-- SEEKING with one neighbour heard. -/
def seeking : State :=
  upd (ringAt .seeking (at_ .quiet)) (fun n => { n with memb := { n.memb with
    seekTimer := some 1, downstream := { n.memb.downstream with heardInSeek := true } } })

theorem test_meets_BeaconIsHeard :
    (seeking.live ∧ seeking.hands up ∧ seeking.node.memb.ring = .seeking ∧
      seeking.node.memb.downstream.heardInSeek = true) ∧
    ((at_ .threading).live ∧ (at_ .threading).hands down ∧
      (at_ .threading).node.sched.active = some (1, sched) ∧
      down.source = byte (at_ .threading).settings.config.downstream) ∧
    ((at_ .rolling).hands { up with source := 7 } ∧
      (7 : Byte) ≠ byte (at_ .rolling).settings.config.upstream ∧
      (7 : Byte) ≠ byte (at_ .rolling).settings.config.downstream) ∧
    ((at_ .rolling).node.memb.ring ≠ .seeking ∧ (at_ .rolling).node.memb.upstream.mark ≠ .lost ∧
      (at_ .rolling).node.memb.downstream.mark ≠ .lost) := by
  simp only [State.live, State.hands]
  decide +kernel

/-- The upstream neighbour LOST. -/
def lostUp (s : State) : State :=
  upd s (fun n => { n with memb := { n.memb with upstream := { n.memb.upstream with mark := .lost } } })

/-- The last cause goes, with and without the clamp; a further cause stays; the ring is joined; the sink
rolls. -/
theorem test_meets_BeaconIsHeard_recovers :
    (∀ s ∈ [lostUp (held .rolling ⟨false, true, false, false⟩ 60),
        lostUp (held .rolling ⟨false, true, false, false⟩ (-6000)),
        lostUp (held .rolling ⟨true, true, false, false⟩ 60)],
      s.live ∧ s.hands up ∧ s.node.memb.ring ≠ .seeking ∧ s.node.memb.upstream.mark = .lost ∧
      up.source = byte s.settings.config.upstream ∧ s.node.memb.downstream.mark = .live ∧
      s.roomFor 1 ∧ s.node.sched.active = some (1, sched) ∧ s.node.gap.base = some 15000) ∧
    (let s := lostUp (held .rolling ⟨false, true, false, false⟩ 60)
     s.node.holdEndsAt Holds.empty = true ∧ s.node.holdEndClamps = false ∧
      (after (.beaconReceived up beacon0) s).node.gap.reference = 15060) ∧
    (let s := lostUp (held .rolling ⟨false, true, false, false⟩ (-6000))
     s.node.holdEndClamps = true ∧
      (after (.beaconReceived up beacon0) s).node.flt.counter .demandClamped = 1) ∧
    (lostUp (held .rolling ⟨true, true, false, false⟩ 60)).node.holdEndsAt ⟨true, false, false, false⟩ =
      false ∧
    (let s := upd (ringAt .seeking (held .rolling ⟨true, false, false, false⟩ 60)) (fun n => { n with
        memb := { n.memb with downstream := { n.memb.downstream with heardInSeek := true } } })
     s.live ∧ s.hands up ∧ s.node.holdEndsAt Holds.empty = true ∧
      (after (.beaconReceived up beacon0) s).node.seq.holds = Holds.empty ∧
      (after (.beaconReceived up beacon0) s).node.gap.reference = 15060) ∧
    (held .threading ⟨true, false, false, false⟩ 60).hands down := by
  simp only [State.live, State.hands, State.roomFor]
  decide +kernel

theorem test_meets_BeaconAndSeekTimersAct :
    ((ranOut (at_ .rolling)).live ∧ (ranOut (at_ .rolling)).node.memb.beaconTimer = some 0 ∧
      (ranOut (at_ .rolling)).node.memb.ring.admits .beacon = true) ∧
    (at_ .rolling).node.memb.beaconTimer = some 5 ∧
    ((ringAt .dark (at_ .rolling)).node.memb.ring.admits .beacon = false) ∧
    (upd (at_ .quiet) (fun n => { n with memb := Membership.powerOn })).node.memb.beaconTimer = none ∧
    ((ranOut seeking).live ∧ (ranOut seeking).node.memb.ring = .seeking ∧
      (ranOut seeking).node.memb.seekTimer = some 0 ∧ seeking.node.memb.seekTimer = some 1 ∧
      (ranOut seeking).node.seq.stand.strip = false ∧ (ranOut seeking).node.seq.holds.ring = false) ∧
    (let s := upd (ringAt .seeking (at_ .rolling)) (fun n => { n with memb := { n.memb with
        seekTimer := some 0, upstream := NeighbourRec.powerOn } })
     s.live ∧ s.node.seq.stand.strip = true ∧ s.settings.config.route = .hold ∧
      s.node.memb.upstream.heardInSeek = false ∧ s.node.memb.upstream.mark = .unheard) ∧
    (at_ .rolling).node.memb.ring ≠ .seeking := by
  simp only [State.live]
  decide +kernel

theorem test_meets_LivenessTimerLosesNeighbour :
    (∀ w ∈ [Neighbour.upstream, .downstream], (ranOut (at_ .rolling)).live ∧
      ((ranOut (at_ .rolling)).node.memb.record w).timer = some 0 ∧
      ((at_ .rolling).node.memb.record w).timer ≠ some 0) ∧
    (at_ .quiet).node.seq.stand.strip = false ∧
    ((at_ .rolling).node.seq.stand.strip = true ∧ (at_ .rolling).settings.config.route = .hold) ∧
    (let s := cfg (at_ .tailing) (fun c => { c with route := .trip })
     s.live ∧ s.settings.config.route = .trip ∧ s.node.untripped ∧ s.node.seq.stand.strip = true) ∧
    (upd (at_ .quiet) (fun n => { n with memb := Membership.powerOn })).node.memb.upstream.timer =
      none := by
  simp only [State.live, Node.untripped]
  decide +kernel

/-- With the grace timer running, and hold cause RING as given. -/
def grace (ring : Bool) : State :=
  upd (at_ .rolling) (fun n => { n with
    memb := { n.memb with graceTimer := some 0 }
    seq := { n.seq with holds := ⟨ring, false, false, false⟩ } })

theorem test_meets_GraceTimerTripsHeldStand :
    ((grace true).live ∧ (grace true).node.memb.graceTimer = some 0 ∧
      (grace true).node.seq.holds.ring = true ∧ (grace true).node.untripped ∧ (grace true).roomFor 2) ∧
    ((grace false).node.memb.graceTimer = some 0 ∧ (grace false).node.seq.holds.ring = false) ∧
    (at_ .rolling).node.memb.graceTimer = none ∧
    (opened .ringOpen Holds.empty 0).node.memb.graceTimer = some 7 := by
  simp only [State.live, State.roomFor, Node.untripped]
  decide +kernel

/-- Each case of the admission of a write, with the first object, source or length that meets it. -/
theorem test_meets_WriteIsRefusedInOrder :
    ((at_ .quiet).live ∧ (at_ .quiet).hands hdr ∧ settledClass (at_ .quiet).settings 25 = none) ∧
    settledClass (at_ .quiet).settings 0 = some .read ∧
    ((at_ .quiet).hands { hdr with dest := 31 } ∧
      settledClass (at_ .quiet).settings 2 = some .gated) ∧
    ((at_ .quiet).hands { hdr with source := 1 } ∧ 1 ∉ (at_ .quiet).settings.config.authority) ∧
    (let s := cfg (at_ .rolling) (fun c => { c with closures := List.replicate 25 .quiet })
     s.hands hdr ∧ ∃ i ∈ List.range 25, settledClass s.settings i = some .quietWrite) ∧
    (([1, 2] : List Byte).length ≠ valueSize 2 ∧ ([3] : List Byte).length = valueSize 2 ∧
      ([3] : List Byte) ≠ [1] ∧ ([3] : List Byte) ≠ [2]) := by
  simp only [State.live, State.hands]
  decide +kernel

/-- A read request with a part or an argument, to an object that no closure closes and to one that is
closed. -/
def readPart (index arg : Byte) : Frame := { readFrame index with payload := [index, 0, arg] }

theorem test_meets_WriteIsRefusedInOrder_reads :
    (∀ f ∈ [readPart 1 0, readPart 2 0, readPart 25 0, readPart 17 0, readPart 17 32, readPart 17 33,
        readPart 22 31, readPart 22 64, readPart 22 65, readPart 12 2, readPart 12 3, readPart 3 1],
      judgeArrival f.encode = .intact f ∧ f.kind = .rdreq ∧ (at_ .quiet).hands f.header ∧
      f.hop + 1 < 32) ∧
    ((at_ .quiet).live ∧ (at_ .quiet).roomFor 1 ∧ (at_ .quiet).node.ring.passBuffer.length < 6 ∧
      settledClass (at_ .quiet).settings 25 = none ∧
      settledClass (cfg (at_ .quiet) (fun c => { c with closures := List.replicate 25 .closed })).settings
        2 = some .closed ∧
      settledClass (at_ .quiet).settings 1 = some .read) ∧
    ((objectValue (at_ .quiet).settings (at_ .quiet).node 12).length = 91 ∧
      (objectValue (at_ .quiet).settings (at_ .quiet).node 3).length = 23) ∧
    (∀ r ∈ [(Route.hold, (1 : Byte)), (.trip, 2)],
      configField (cfg (at_ .quiet) (fun c => { c with route := r.1 })).settings 31 = some [r.2]) ∧
    (configField (at_ .quiet).settings 64).isSome = true ∧
    configField (at_ .quiet).settings 65 = none ∧
    ((at_ .quiet).node.sched.active = some (1, sched) ∧ State.reset.node.sched.active = none ∧
      State.reset.node.track.comparison = none ∧
      (marked 4100).node.track.comparison = none ∧
      (after (.markReceived up ⟨8, 1000, 4, 2⟩) (marked 4100)).node.track.comparison =
        some (4100, 100)) := by
  simp only [State.live, State.hands, State.roomFor]
  decide +kernel

theorem test_meets_PresetCommandEntersPreset :
    ((at_ .quiet).live ∧ (at_ .quiet).admitsWrite hdr 2 ∧ (at_ .quiet).node.seq.stand = .quiet ∧
      (at_ .quiet).node.sched.active = some (1, sched) ∧ (at_ .quiet).node.memb.ring = .joined ∧
      (at_ .quiet).node.memb.upstream.mark = .live ∧ (at_ .quiet).node.memb.downstream.mark = .live) ∧
    ((at_ .ready).admitsWrite hdr 2 ∧ (at_ .ready).node.seq.stand ≠ .quiet) ∧
    (let e : ReqEntry := ⟨1, 1, 13, .coefRead, some ⟨1, 1⟩⟩
     let s := fun k => upd (at_ .quiet) (fun n => { n with dir := { n.dir with
        table := List.replicate k e } })
     (s 4).admitsWrite hdr 2 ∧ 4 ≤ (s 4).node.dir.table.length ∧
      (s 3).admitsWrite hdr 2 ∧ (s 3).node.dir.table.length < 4) := by
  simp only [State.live, State.admitsWrite, State.hands]
  decide +kernel

theorem test_meets_QuietCommandEntersQuiet :
    (∀ st ∈ [StandState.quiet, .preset, .ready, .threading, .tripped],
      (at_ st).live ∧ (at_ st).admitsWrite hdr 2 ∧ (at_ st).node.seq.stand = st) := by
  simp only [State.live, State.admitsWrite, State.hands]
  decide +kernel

theorem test_meets_NextScheduleActivatesOrArms :
    ((at_ .quiet).live ∧ (at_ .quiet).admitsWrite hdr 4 ∧
      getFour (at_ .quiet).node.sched.slots 1 = .loaded (2 : Byte).toNat sched) ∧
    ((at_ .rolling).admitsWrite hdr 4 ∧ (at_ .rolling).node.seq.stand = .rolling) ∧
    (∀ k, getFour (at_ .rolling).node.sched.slots k ≠ .loaded (0 : Byte).toNat sched) ∧
    ((at_ .ready).admitsWrite hdr 4 ∧ (at_ .ready).node.seq.stand ≠ .quiet ∧
      (at_ .ready).node.seq.stand ≠ .rolling) := by
  simp only [State.live, State.admitsWrite, State.hands]
  decide +kernel

theorem test_meets_NextScheduleActivatesOrArms_none :
    ¬ ∃ k r, getFour (at_ .rolling).node.sched.slots k = .loaded (0 : Byte).toNat r := by
  rintro ⟨k, r, h⟩
  match k, h with
  | 0, h => exact Slot.noConfusion h
  | 1, h => exact absurd (Slot.loaded.inj h).1 (by decide)
  | 2, h => exact Slot.noConfusion h
  | 3, h => exact Slot.noConfusion h

theorem test_meets_SlotFreeEmptiesLoadedSlot :
    (at_ .rolling).live ∧ (at_ .rolling).admitsWrite hdr 6 ∧
    (∀ k, (getFour (at_ .rolling).node.sched.slots k).id ≠ some (255 : Byte).toNat) ∧
    (getFour (at_ .rolling).node.sched.slots 1).id = some (2 : Byte).toNat ∧
    getFour (at_ .rolling).node.sched.slots 1 = .loaded (2 : Byte).toNat sched ∧
    (getFour (at_ .rolling).node.sched.slots 0).id = some (1 : Byte).toNat ∧
    (∀ r ∈ [sched], getFour (at_ .rolling).node.sched.slots 0 ≠ .loaded (1 : Byte).toNat r) := by
  simp only [State.live, State.admitsWrite, State.hands]
  decide +kernel

theorem test_meets_SlotFreeEmptiesLoadedSlot_law (stand : StandState) : (at_ stand).slotLaw := by
  refine ⟨?_, ?_, fun _ => ?_, ids_once _ ?_⟩ <;> cases stand <;> decide +kernel

theorem test_meets_GapTrimStoresTrim :
    ((at_ .quiet).live ∧ (at_ .quiet).admitsWrite hdr 7 ∧ (1000 : Half).toInt ≤ 1000 ∧
      -1000 ≤ (0xFC18 : Half).toInt ∧ (0xFC17 : Half).toInt < -1000 ∧ 1000 < (1001 : Half).toInt) ∧
    (at_ .quiet).node.seq.stand.strip = false ∧
    ((at_ .rolling).admitsWrite hdr 7 ∧ (at_ .rolling).node.seq.stand.strip = true ∧
      (at_ .rolling).node.seq.holds.any = false ∧ (at_ .rolling).node.gap.base = some 15000 ∧
      (at_ .rolling).node.sched.active = some (1, sched)) ∧
    ((at_ .threading).admitsWrite hdr 7 ∧
      Instr.objectWrite hdr 7 [3, 232] = .objectWrite hdr 7 (halfBytes 1000)) ∧
    (let s := upd (at_ .rolling) (fun n => { n with gap := { n.gap with base := some 29001 } })
     s.admitsWrite hdr 7 ∧ (29001 : Int) + 0 + 0 + 1000 + 0 > sched.gapMax ∧
      s.node.gap.clampMark = false ∧ s.roomFor 3) := by
  simp only [State.live, State.admitsWrite, State.hands, State.roomFor]
  decide +kernel

theorem test_meets_EnablesAreStored :
    (at_ .rolling).live ∧ (at_ .rolling).admitsWrite { hdr with dest := 31 } 8 ∧
    (at_ .rolling).admitsWrite { hdr with dest := 31 } 9 ∧ (2 : Byte) ≠ 0 ∧ (2 : Byte) ≠ 1 := by
  simp only [State.live, State.admitsWrite, State.hands]
  decide +kernel

theorem test_meets_CoefficientWriteIsQueued :
    ((at_ .quiet).live ∧ (at_ .quiet).admitsWrite hdr 13 ∧ (63 : Byte).toNat ≤ 63 ∧
      (7 : Byte).toNat ≤ 7 ∧ -2000 ≤ (0xF830 : Half).toInt ∧ (2000 : Half).toInt ≤ 2000 ∧
      (1000 : Half).toNat ≤ 1000 ∧ ¬ (64 : Byte).toNat ≤ 63) ∧
    ({ at_ .quiet with settings := { (at_ .quiet).settings with writeProtect := true } }).admitsWrite
      hdr 13 ∧
    (let s := fun k => upd (at_ .quiet) (fun n => { n with gap := { n.gap with
        queue := List.replicate k (.write coef true) } })
     (s 4).admitsWrite hdr 13 ∧ 4 ≤ (s 4).node.gap.queue.length ∧
      (s 3).admitsWrite hdr 13 ∧ (s 3).node.gap.queue.length < 4) := by
  simp only [State.live, State.admitsWrite, State.hands]
  decide +kernel

theorem test_meets_CoefficientReadHitsOrWaits :
    ((at_ .quiet).live ∧ (at_ .quiet).hands hdr ∧
      settledClass (at_ .quiet).settings 13 = some .readWrite ∧ AccessClass.readWrite ≠ .closed) ∧
    (63 < (64 : Byte).toNat ∧ 7 < (8 : Byte).toNat ∧ ¬ (63 < (63 : Byte).toNat ∨ 7 < (7 : Byte).toNat)) ∧
    ((after (.fillComplete (.delivered coef.bytes)) (after (.coefEntryRead hdr 63 7)
      (at_ .quiet))).node.gap.cached ⟨63, 7⟩ = some coef) ∧
    ((at_ .quiet).node.gap.cached ⟨63, 7⟩ = none ∧ (at_ .quiet).node.dir.table.length < 4 ∧
      ParamOp.fill ⟨63, 7⟩ ∉ (at_ .quiet).node.gap.queue) ∧
    ParamOp.fill ⟨63, 7⟩ ∈ (after (.coefEntryRead hdr 63 7) (at_ .quiet)).node.gap.queue := by
  simp only [State.live, State.hands]
  decide +kernel

/-- TRIPPED on the own origin, with line 2, of sense HIGH, asserted as given. -/
def levelled (level : Bool) : State :=
  upd tripped (fun n => { n with pins := { n.pins with lines := ⟨false, false, level, false⟩ } })

theorem test_meets_TripClearRetiresOrigins :
    (tripped.live ∧ tripped.startupHolds ∧ tripped.admitsWrite hdr 15) ∧
    (after .retractTimerExpiry (ranOut tripped)).node.seq.stand = .lockout ∧
    (31 < (32 : Byte).toNat ∧ (30 : Byte).toNat < 31 ∧
      tripped.node.trip.recorded (30 : Byte).toNat = false) ∧
    (anyLevelCause (levelled true).settings.config (levelled true).node.pins = true ∧
      (levelled true).node.trip.recorded (5 : Byte).toNat = true ∧
      (5 : Byte).toNat = (levelled true).settings.station) ∧
    ((levelled true).node.trip.recorded (4 : Byte).toNat = true ∧
      (levelled true).node.trip.recorded (levelled true).settings.station = true) ∧
    (anyLevelCause (levelled false).settings.config (levelled false).node.pins = false ∧
      (levelled false).node.trip.recorded (5 : Byte).toNat = true ∧ (levelled false).roomFor 1) ∧
    (let s := upd (after (.tripReceived up ⟨4, 2, 2, 22, 9⟩) (at_ .rolling)) (fun n => { n with
        gap := { n.gap with supervision := .retracted } })
     s.startupHolds ∧ s.admitsWrite hdr 15 ∧ s.node.trip.recorded (4 : Byte).toNat = true ∧
      s.node.trip.pending = none ∧ s.node.trip.dropped = 0 ∧ s.node.pins.loopClosed = true ∧
      s.node.pins.servoFlt = false ∧ s.node.seq.stand = .tripped) := by
  simp only [State.live, State.admitsWrite, State.hands, State.roomFor, State.startupHolds]
  decide +kernel

theorem test_meets_FaultRecordsAreCleared :
    tripped.live ∧ tripped.admitsWrite hdr 17 ∧ tripped.admitsWrite hdr 18 ∧ tripped.roomFor 1 ∧
    (32 : Byte).toNat ≤ 32 ∧ 32 < (33 : Byte).toNat ∧ (1 : Half) ≠ 0 := by
  simp only [State.live, State.admitsWrite, State.hands, State.roomFor]
  decide +kernel

theorem test_meets_NodeResetTakesSoftReset :
    (∀ st ∈ [StandState.quiet, .preset, .ready], (at_ st).live ∧ (at_ st).admitsWrite hdr 21 ∧
      (at_ st).node.seq.stand.quietish = true ∧ (at_ st).roomFor (1 + (at_ st).node.dir.table.length)) ∧
    ((at_ .rolling).admitsWrite hdr 21 ∧ (at_ .rolling).node.seq.stand.quietish = false) ∧
    (2 : Byte) ≠ 1 := by
  simp only [State.live, State.admitsWrite, State.hands, State.roomFor]
  decide +kernel

theorem test_meets_ScheduleLoadRuns :
    ((at_ .quiet).live ∧ (at_ .quiet).admitsSched hdr ∧ (at_ .quiet).slotLaw) ∧
    (getFour (loading 2 []).node.sched.slots 2 = .loading ⟨3, 25, 2, [], 400⟩ ∧
      (3 : Nat) = (3 : Byte).toNat ∧ (25 : Byte) = hdr.source ∧ (loading 2 []).slotLaw) ∧
    ((getFour (at_ .quiet).node.sched.slots 1).id = some (2 : Byte).toNat) ∧
    (getFour (at_ .quiet).node.sched.slots 2 = .empty ∧
      ∀ j < (2 : Fin 4), getFour (at_ .quiet).node.sched.slots j ≠ .empty) ∧
    ((1 : Byte).toNat = ([] : List (List Byte)).length + 1 ∧ section1.length = 18 ∧
      section2.length = 1 + 3 * (1 : Byte).toNat) ∧
    (([section1, section2].length : Nat) = 2 ∧ (scheduleOf [section1, section2]).valid = true ∧
      ([section1] : List (List Byte)).length < 2) ∧
    (loading 2 []).roomFor 2 := by
  have hl : (loading 2 []).slotLaw :=
    ⟨by decide +kernel, by decide +kernel, by decide +kernel, ids_once _ (by decide +kernel)⟩
  simp only [State.live, State.admitsSched, State.hands, State.roomFor]
  refine ⟨⟨by decide +kernel, by decide +kernel, test_meets_SlotFreeEmptiesLoadedSlot_law _⟩,
    ⟨by decide +kernel, by decide +kernel, by decide +kernel, hl⟩, by decide +kernel⟩

/-- An idle timer that has run out, one that has not, and a slot that does not load. -/
theorem test_meets_ScheduleLoadRuns_idle :
    (let s := upd (loading 2 []) (fun n => { n with sched := { n.sched with
        slots := { n.sched.slots with x2 := .loading ⟨3, 25, 2, [], 0⟩ } } })
     s.live ∧ getFour s.node.sched.slots 2 = .loading ⟨3, 25, 2, [], 0⟩) ∧
    getFour (loading 2 []).node.sched.slots 2 = .loading ⟨3, 25, 2, [], 400⟩ ∧
    (loading 2 []).node.sched.slots.x0 = .active 1 sched := by
  simp only [State.live]
  decide +kernel

/-- A load refused BUSY (no slot is EMPTY; another station loads), and a station outside the authority
list. -/
theorem test_meets_ScheduleLoadRuns_refused :
    (let s := upd (at_ .quiet) (fun n => { n with sched := { n.sched with
        slots := ⟨.active 1 sched, .loaded 2 sched, .loaded 3 sched, .loaded 4 sched⟩ } })
     s.live ∧ s.admitsSched hdr ∧ (∀ k, getFour s.node.sched.slots k ≠ .empty) ∧
      ∀ k, (getFour s.node.sched.slots k).id ≠ some (5 : Byte).toNat) ∧
    (let s := upd (at_ .quiet) (fun n => { n with sched := { n.sched with
        slots := { n.sched.slots with x2 := .loading ⟨3, 24, 2, [], 400⟩ } } })
     s.live ∧ s.admitsSched hdr ∧ (24 : Byte) ≠ hdr.source ∧
      (∃ k, getFour s.node.sched.slots k = .loading ⟨3, 24, 2, [], 400⟩) ∧
      ∀ k, (getFour s.node.sched.slots k).id ≠ some (5 : Byte).toNat) ∧
    ((at_ .quiet).hands { hdr with source := 1 } ∧
      (1 : Byte).toNat ∉ (at_ .quiet).settings.config.authority) := by
  simp only [State.live, State.hands, State.admitsSched]
  decide +kernel

/-- With E set and records in the arrival queue. -/
def expecting (stand : StandState) (e : Half) (k : Nat) : State :=
  upd (at_ stand) (fun n => { n with track := { n.track with
    expected := some e, arrival := List.replicate k (segRecord (segment 1 0 5000) (mm 4500)) } })

theorem test_meets_SegmentIsSequenced :
    ((at_ .rolling).live ∧ (at_ .rolling).hands up ∧ (at_ .rolling).hands down ∧
      up.source = byte (at_ .rolling).settings.config.upstream ∧
      down.source ≠ byte (at_ .rolling).settings.config.upstream) ∧
    ((at_ .quiet).hands up ∧ (at_ .quiet).node.seq.stand.strip = false) ∧
    ((segment 7 1 2000).flags.getLsbD 0 = true ∧ (segment 7 0 2000).flags.getLsbD 0 = false ∧
      reaches (at_ .rolling).node.meas.entryCount (mm 1500) = false) ∧
    ((expecting .rolling 8 3).hands up ∧ 32768 ≤ ((7 : Half) - 8).toNat ∧
      32768 ≤ ((8 + 32768 : Half) - 8).toNat ∧ ((8 + 32767 : Half) - 8).toNat < 32768) ∧
    ((expecting .rolling 8 16).hands up ∧ 16 ≤ (expecting .rolling 8 16).node.track.arrival.length) ∧
    ((expecting .rolling 8 15).node.track.arrival.length < 16 ∧
      (expecting .rolling 8 15).node.track.arrival ≠ [] ∧
      (expecting .rolling 8 15).node.track.expected = some 8) ∧
    ((expecting .ready 8 0).hands up ∧ (expecting .ready 8 0).node.track.headWaiting = false ∧
      (expecting .ready 8 0).node.track.arrival = [] ∧
      reaches (expecting .ready 8 0).node.meas.entryCount (mm 500 - mm 500) = true ∧
      (segment 8 0 500).flags.getLsbD 1 = false ∧ (segment 8 0 500).flags.getLsbD 2 = false) := by
  simp only [State.live, State.hands]
  decide +kernel

/-- A schedule with a profile of three entries, of which a number may reach two at once. -/
def profiled : Schedule := { sched with profile := [(1, 50), (2, -20), (5, 7)] }

/-- With the trim profile of schedule 1 running from a weld, its entry `i` the next to be reached. -/
def running (weld : Half) (i : Nat) (s : State) : State :=
  upd s (fun n => { n with
    sched := { n.sched with
      slots := ⟨.active 1 profiled, .loaded 2 sched, .empty, .empty⟩, profile := some ⟨weld, 1, i⟩ } })

/-- A record due at its arrival in READY takes a running profile on, and leaves the reference. -/
theorem test_meets_SegmentIsSequenced_profile :
    let s := running 6 1 (expecting .ready 8 0)
    let t := after (.segReceived up (segment 8 0 500)) s
    s.live ∧ s.hands up ∧ s.node.sched.profile = some ⟨6, 1, 1⟩ ∧
    t.node.sched.profile = some ⟨6, 1, 3⟩ ∧ t.node.gap.profileTrim = -20 ∧
    t.node.gap.reference = s.node.gap.reference := by
  simp only [State.live, State.hands]
  decide +kernel

/-- A WELD record due at its arrival in READY. -/
theorem test_meets_SegmentIsSequenced_weld :
    let s := expecting .ready 8 0
    s.live ∧ s.hands up ∧ (segment 8 2 500).flags.getLsbD 1 = true ∧
    (segment 8 2 500).flags.getLsbD 2 = false ∧ (segment 8 2 500).flags.getLsbD 0 = false ∧
    s.roomFor 0 ∧ s.gapLaw := by
  have hv : ∀ x ∈ listFour (expecting .ready 8 0).node.sched.slots, ∀ r ∈ x.record, r.valid = true := by
    decide +kernel
  have hs : ¬ (expecting .ready 8 0).node.seq.stand.strip = true := by decide +kernel
  refine ⟨by simp only [State.live]; decide +kernel, by simp only [State.hands]; decide +kernel,
    by decide +kernel, by decide +kernel, by decide +kernel, by simp only [State.roomFor]; decide +kernel,
    hv, fun _ => by decide +kernel, fun _ h => absurd h hs⟩

theorem test_meets_MarkChecksCobble :
    ((marked 0).live ∧ (marked 0).hands up ∧ (marked 0).hands down ∧
      (marked 0).node.seq.stand = .rolling ∧ (marked 0).node.track.baseline = some (4, 0)) ∧
    ((at_ .ready).hands up ∧ (at_ .ready).node.seq.stand ≠ .rolling) ∧
    (at_ .rolling).node.track.baseline = none ∧
    ((8 : Half) = 4 + BitVec.ofNat 16 (max 4 (min 64 (4 : Byte).toNat)) ∧
      (9 : Half) ≠ 4 + BitVec.ofNat 16 (max 4 (min 64 (4 : Byte).toNat))) ∧
    (((4100 : Pos) - 0).toInt - 4 * 1000 = 100 ∧ (marked 4101).node.untripped ∧
      (marked 4101).settings.config.cobbleTolerance = 100 ∧ (marked 4101).roomFor 2) := by
  simp only [State.live, State.hands, State.roomFor, Node.untripped]
  decide +kernel

theorem test_meets_TripFrameIsRecorded :
    ((at_ .rolling).live ∧ (at_ .rolling).hands up ∧ (at_ .rolling).node.untripped ∧
      (at_ .rolling).node.trip.recorded 30 = false ∧ (30 : Nat) ≠ (at_ .rolling).settings.station) ∧
    (tripped.hands up ∧ tripped.node.seq.stand.stopped = true ∧ tripped.node.trip.recorded 4 = true ∧
      tripped.node.trip.recorded 1 = false) := by
  simp only [State.live, State.hands, Node.untripped]
  decide +kernel

/-- MEASURING asserted and a depth of the sample FIFO, in ROLLING. -/
def depth (k : Nat) : State :=
  upd (measuring .rolling) (fun n => { n with meas := { n.meas with
    fifo := List.replicate k ⟨0, 1500, true⟩ } })

theorem test_meets_GaugeSamplesReachSegments :
    ((measuring .quiet).live ∧ (measuring .quiet).node.seq.stand.strip = false) ∧
    ((at_ .rolling).node.seq.stand.strip = true ∧ (at_ .rolling).node.pins.measuring = false) ∧
    ((depth 32).live ∧ (depth 32).node.pins.measuring = true ∧ 32 ≤ (depth 32).node.meas.fifo.length ∧
      (depth 31).node.meas.fifo.length < 32 ∧ (depth 23).node.meas.fifo.length + 1 = 24) ∧
    ((measuring .rolling).node.pins.measuring = true ∧ (measuring .rolling).node.seq.stand = .rolling) ∧
    (at_ .rolling).node.track.openSeg = none ∧
    (let s := sampling [mm 499, mm 500]
     s.live ∧ s.node.track.openSeg = some seg0 ∧
      reaches (mm 499 - mm s.settings.config.gaugeOffset) seg0.spanStart = false ∧
      reaches (mm 500 - mm s.settings.config.gaugeOffset) seg0.spanStart = true ∧
      reaches (mm 1499 - mm 500) (seg0.spanStart + mm s.settings.config.segLength) = false) ∧
    (let s := sampling [mm 1500, mm 1600]
     reaches (mm 1500 - mm 500) (seg0.spanStart + mm s.settings.config.segLength) = true ∧
      (mm 1500 - mm 500 - (seg0.spanStart + mm 1000)).toNat < s.settings.config.segLength ∧
      s.node.sched.active = some (1, sched) ∧ s.node.track.exitTrack.length < 48 ∧
      reaches s.node.meas.exitCount (seg0.spanStart +
        mm (s.settings.config.biteDistance - s.settings.config.publishLead)) = false) := by
  simp only [State.live]
  decide +kernel

/-- ROLLING with one sample, the EXIT count at a position and the monitor enabled. -/
def lastSample (stamp here : Pos) : State :=
  upd (sampling [stamp]) (fun n => { n with
    meas := { n.meas with exitCount := here }
    gap := { n.gap with monitorEnable := true } })

/-- A take that empties the FIFO with the span passed, of a stale sample and of one within the span; and the
monitor of the close: a hold, no effect, a mean of none, a miss and a hit. -/
theorem test_meets_GaugeSamplesReachSegments_last :
    (∀ s ∈ [lastSample (mm 499) (mm 1500), lastSample (mm 600) (mm 1500)],
      s.live ∧ s.node.track.openSeg = some seg0 ∧
      reaches (mm 1500 - mm 500) (seg0.spanStart + mm s.settings.config.segLength) = true ∧
      (mm 1500 - mm 500 - (seg0.spanStart + mm 1000)).toNat < s.settings.config.segLength ∧
      s.node.track.exitTrack.length < 48 ∧
      reaches s.node.meas.exitCount (seg0.spanStart +
        mm (s.settings.config.biteDistance - s.settings.config.publishLead)) = false ∧
      s.node.seq.stand = .rolling ∧ s.node.seq.holds.any = false ∧ s.node.gap.monitorEnable = true ∧
      s.node.sched.active = some (1, sched) ∧ sched.monitorAllowed = true ∧
      s.node.gap.cached ⟨sched.pclass, s.node.meas.band⟩ = none) ∧
    (reaches (mm 499 - mm 500) seg0.spanStart = false ∧ reaches (mm 600 - mm 500) seg0.spanStart = true ∧
      reaches (mm 600 - mm 500) (seg0.spanStart + mm 1000) = false) ∧
    (let s := upd (lastSample (mm 600) (mm 1500)) (fun n => { n with gap := { n.gap with
        cache := n.gap.cache.set 7 ⟨some ⟨⟨7, 0⟩, 0, 1000⟩, none, false⟩ } })
     s.node.gap.cached ⟨sched.pclass, s.node.meas.band⟩ = some ⟨⟨7, 0⟩, 0, 1000⟩ ∧
      s.node.gap.base = some 15000 ∧
      (after .sampleTake s).node.gap.monitor = -10 ∧
      (after .sampleTake s).node.gap.reference = 14990) ∧
    (let s := upd (lastSample (mm 600) (mm 1500)) (fun n => { n with
        seq := { n.seq with holds := ⟨true, false, false, false⟩ } })
     s.live ∧ s.node.seq.holds.any = true) ∧
    ((sampling [mm 600]).node.gap.monitorEnable = false ∧ ({ seg0 with good := 0 }).good = 0) := by
  simp only [State.live]
  decide +kernel

/-- A full exit track whose records are due at an EXIT count. -/
def fullTrack (k : Nat) (due : Pos) (s : State) : State :=
  upd s (fun n => { n with track := { n.track with
    exitTrack := List.replicate k ⟨4, 3, some 5, 10, true, false, false, false, false, 1, mm 500, due⟩ } })

/-- In TAILING, at an EXIT count. -/
def tailingAt (here : Pos) (s : State) : State :=
  upd s (fun n => { n with
    seq := { n.seq with stand := .tailing }, meas := { n.meas with exitCount := here } })

/-- A take that closes three segments; a close with the exit track full; a record already due at its close,
with those ahead of it due, and with a ring state that admits no SEG. -/
theorem test_meets_GaugeSamplesReachSegments_closes :
    (let s := sampling [mm 3600, mm 3700]
     let t := after .sampleTake s
     s.live ∧ reaches (mm 3600 - mm 500) (seg0.spanStart + mm 1000) = true ∧
      (mm 3600 - mm 500 - (seg0.spanStart + mm 1000)).toNat / s.settings.config.segLength = 2 ∧
      s.node.track.exitTrack.length + 2 < 48 ∧ s.node.track.weldList = [] ∧
      t.node.track.exitTrack.map (·.number) = [7, 8, 9] ∧
      t.node.track.exitTrack.map (·.sampleCount) = [2, 0, 0] ∧ t.node.track.counts.closed = 3 ∧
      t.node.track.openSeg = some ⟨10, 3, mm 3000, 0, false, false, 1, 1520, 0⟩) ∧
    (let s := tailingAt (mm 1500) (fullTrack 48 (mm 5500) (sampling [mm 1500, mm 1600]))
     let t := after .sampleTake s
     s.live ∧ 48 ≤ s.node.track.exitTrack.length ∧ s.node.memb.ring.admits .seg = true ∧ s.roomFor 2 ∧
      s.node.sched.active = some (1, sched) ∧ t.node.gap.clampMark = s.node.gap.clampMark ∧
      t.node.track.exitTrack.length = 48 ∧ t.node.track.counts.published = 1 ∧
      t.node.flt.counter .exitTrackFull = 1 ∧
      sent t = [[0, 4, 0, 3, 0, 5, 10, 1, 19, 136, 1, 3], [23, 1, 6, 0, 7, 0, 1]]) ∧
    (let s := tailingAt (mm 5100) (fullTrack 1 (mm 5100) (sampling [mm 1500, mm 1600]))
     let t := after .sampleTake s
     s.live ∧ reaches s.node.meas.exitCount (seg0.spanStart + mm (6000 - 1000)) = true ∧
      s.node.memb.ring.admits .seg = true ∧ s.roomFor 3 ∧ t.node.track.exitTrack = [] ∧
      sent t = [[0, 4, 0, 3, 0, 5, 10, 1, 5, 120, 1, 3], [0, 4, 3, 232, 4, 3],
        [0, 7, 0, 3, 0, 5, 2, 1, 3, 132, 1, 3]]) ∧
    (let s := ringAt .dark (tailingAt (mm 5100) (sampling [mm 1500, mm 1600]))
     s.live ∧ s.node.memb.ring.admits .seg = false ∧
      (after .sampleTake s).node.track.counts.publishRefused = 1) := by
  simp only [State.live, State.roomFor]
  decide +kernel

/-- A load state and a force of the drive side, in a stand state. -/
def loaded (stand : StandState) (on : Bool) (drive : Nat) (overload : Bool) : State :=
  upd (at_ stand) (fun n => { n with meas := { n.meas with
    loadOn := on, forceDS := ⟨drive, true⟩, overload := overload } })

theorem test_meets_ForceSampleIsJudged :
    ((loaded .ready false 0 false).live ∧ (loaded .ready false 0 false).node.seq.stand ≠ .starting ∧
      (loaded .ready false 0 false).settings.config.loadOn = 500 ∧
      (loaded .ready false 0 false).settings.config.loadOff = 300 ∧
      standingFaults (loaded .ready false 0 false).node = [] ∧
      (loaded .ready false 0 false).node.sched.active = some (1, sched)) ∧
    ((loaded .quiet false 0 false).node.untripped ∧ (loaded .preset false 0 false).node.untripped ∧
      (loaded .threading true 0 false).node.untripped ∧ (loaded .rolling true 0 false).node.untripped) ∧
    ((loaded .tailing true 0 false).live ∧ (loaded .tailing true 0 false).node.meas.loadOn = true) ∧
    ((loaded .rolling true 1 false).node.meas.overload = false ∧ sched.forceLimit < 20000 + 1 ∧
      (loaded .rolling true 1 false).settings.config.route = .hold) ∧
    (let s := cfg (loaded .rolling true 1 false) (fun c => { c with route := .trip })
     s.live ∧ s.settings.config.route = .trip ∧ s.node.untripped) ∧
    ((loaded .rolling true 0 true).node.meas.overload = true ∧ 18750 ≤ 15 * sched.forceLimit / 16) ∧
    ((at_ .quiet).node.meas.force .drive = ⟨0, true⟩ ∧
      ((at_ .quiet).node.meas.putForce .drive ⟨0, false⟩).force .drive = ⟨0, false⟩ ∧
      (at_ .rolling).node.untripped) := by
  simp only [State.live, Node.untripped]
  decide +kernel

/-- READY with the load OFF, a break record and marks. -/
def readyWith (b : BreakRecord) (tilt driveValid : Bool) : State :=
  upd (loaded .ready false 0 false) (fun n => { n with
    memb := { n.memb with breakRecord := b }
    meas := { n.meas with tiltMark := tilt, forceDS := ⟨0, driveValid⟩ } })

/-- Conditions that stand at a load-on in READY, and the last cause of a hold that goes. -/
theorem test_meets_ForceSampleIsJudged_standing :
    (∀ s ∈ [readyWith .link false true, readyWith .none true true, readyWith .link true false],
      s.live ∧ s.node.seq.stand = .ready ∧ s.node.meas.overload = false ∧ s.node.untripped ∧
      s.settled ∧ s.countersWhole ∧ s.settings.config.route = .hold ∧ s.settings.config.loadOn = 500 ∧
      s.node.sched.active = some (1, sched)) ∧
    (standingFaults (readyWith .link false true).node = [.ringBreak] ∧
      standingFaults (readyWith .none true true).node = [.tiltLimit] ∧
      standingFaults (readyWith .link true false).node = [.ringBreak, .forceSensor, .tiltLimit]) ∧
    (let t := after (.forceSample .operator true 500) (readyWith .link false true)
     t.node.seq.stand = .threading ∧ t.node.seq.holds.ring = true ∧ t.node.seq.holdCount = 1) ∧
    (let t := after (.forceSample .operator true 500) (readyWith .link true false)
     t.node.seq.stand = .tripped ∧ t.node.trip.localRepeats = 1 ∧
      t.node.flt.counter .forceSensor = 1) ∧
    (let s := cfg (readyWith .link false true) (fun c => { c with route := .trip })
     s.settings.config.route = .trip ∧
      (after (.forceSample .operator true 500) s).node.seq.stand = .tripped) ∧
    (let s := upd (held .rolling ⟨false, false, false, true⟩ 60) (fun n => { n with
        meas := { n.meas with loadOn := true, overload := true } })
     s.live ∧ s.node.holdEndsAt Holds.empty = true ∧
      (after (.forceSample .operator true 18750) s).node.gap.reference = 15060) := by
  simp only [State.live, Node.untripped, State.settled, State.countersWhole]
  decide +kernel

/-- TAILING under load, at an EXIT count, with a record in the exit track. -/
def leaving (here : Pos) : State :=
  upd (tailingAt here (fullTrack 1 (mm 5500) (sampling []))) (fun n => { n with
    meas := { n.meas with loadOn := true, forceDS := ⟨0, true⟩ } })

/-- A load-off in TAILING: neither the record in the exit track nor the tail's is due, or both are. -/
theorem test_meets_ForceSampleIsJudged_tail :
    ((leaving (mm 1500)).live ∧ (leaving (mm 1500)).node.track.openSeg = some seg0 ∧
      (leaving (mm 1500)).node.sched.active = some (1, sched) ∧
      (leaving (mm 1500)).node.memb.ring.admits .seg = true ∧ (leaving (mm 1500)).roomFor 3 ∧
      (leaving (mm 1500)).node.track.exitTrack.length < 48) ∧
    ((leaving (mm 5600)).live ∧ reaches (mm 5600) (mm 5500) = true ∧
      reaches (mm 5600) (seg0.spanStart + mm (6000 - 1000)) = true ∧
      reaches (mm 1500) (seg0.spanStart + mm (6000 - 1000)) = false) := by
  simp only [State.live, State.roomFor]
  decide +kernel

theorem test_tail_flush :
    let t := after (.forceSample .operator true 0) (leaving (mm 1500))
    sent t = [[0, 4, 0, 3, 0, 5, 10, 1, 19, 136, 1, 3], [0, 7, 0, 3, 0, 5, 2, 5, 17, 148, 1, 3]] ∧
    t.node.seq.stand = .quiet ∧ t.node.track.counts.published = 2 := by decide +kernel

/-- Both sides at a position, and the supervision at a target. -/
def placed (stand : StandState) (p : Nat) (v : Supervision) (target : Nat) : State :=
  upd (at_ stand) (fun n => { n with
    meas := { n.meas with posOS := ⟨p, true⟩, posDS := ⟨p, true⟩ }
    gap := { n.gap with supervision := v, target := target, timer := some 0 } })

theorem test_meets_PositionSampleIsJudged :
    ((placed .quiet 25000 .idle 0).live ∧ (placed .quiet 25000 .idle 0).node.seq.stand ≠ .starting ∧
      (placed .quiet 25000 .idle 0).node.gap.supervision ≠ .moving ∧
      (placed .quiet 25000 .idle 0).node.gap.supervision ≠ .retracting) ∧
    ((placed .rolling 15000 .idle 0).node.untripped ∧
      (placed .rolling 15000 .idle 0).node.meas.tiltMark = false ∧
      (placed .rolling 15000 .idle 0).settings.config.tiltLimit = 200 ∧ (201 : Int).natAbs > 200) ∧
    ((placed .preset 25000 .moving 25000).node.gap.supervision = .moving ∧
      (((25000 + 25040) / 2 : Nat) - (25000 : Int)).natAbs ≤
        (placed .preset 25000 .moving 25000).settings.config.positionTolerance) ∧
    ((placed .quiet 25000 .moving 25000).node.seq.stand ≠ .preset) ∧
    (let s := upd (placed .tripped 30000 .retracting 30000) (fun n => { n with
        trip := { n.trip with active := none } })
     s.live ∧ s.node.gap.supervision = .retracting ∧ s.node.trip.active.isNone = true ∧
      s.node.pins.loopClosed = true ∧ s.node.pins.servoFlt = false) ∧
    (tripped.node.gap.supervision = .retracting ∧ tripped.node.trip.active.isNone = false) ∧
    ((at_ .quiet).node.meas.position .drive = ⟨0, true⟩ ∧ (at_ .quiet).node.untripped ∧
      tripped.node.seq.stand = .tripped ∧ (at_ .starting).node.seq.stand = .starting) := by
  simp only [State.live, Node.untripped]
  decide +kernel

/-- A record due at count 1 in ROLLING, with feedforward enabled and its coefficient cached. -/
def dueAtOne : State :=
  upd (at_ .rolling) (fun n => { n with
    track := { n.track with arrival := [segRecord (segment 7 0 500) 1], expected := some 8 }
    gap := { n.gap with
      ffEnable := true
      cache := n.gap.cache.set 7 ⟨some ⟨⟨7, 0⟩, 2000, 0⟩, none, false⟩ } })

theorem test_meets_EncoderPulseMovesCount :
    ((at_ .quiet).live ∧ (at_ .quiet).node.pins.encoder .entry = (false, false) ∧
      (at_ .quiet).node.track.arrival = [] ∧ (at_ .quiet).node.track.openSeg = none ∧
      (at_ .quiet).node.track.exitTrack = [] ∧ (at_ .quiet).node.meas.reversal = none) ∧
    ((at_ .rolling).live ∧ (at_ .rolling).node.seq.stand.strip = true ∧
      (at_ .rolling).settings.config.route = .hold ∧ (at_ .rolling).node.track.arrival = []) ∧
    (dueAtOne.live ∧ dueAtOne.node.seq.stand = .rolling ∧ dueAtOne.node.seq.holds.any = false ∧
      dueAtOne.node.track.headWaiting = false ∧
      dueAtOne.node.track.arrival = [segRecord (segment 7 0 500) 1] ∧
      reaches (dueAtOne.node.meas.entryCount + 1) 1 = true ∧
      (segRecord (segment 7 0 500) 1).deviation = some 100 ∧ dueAtOne.node.gap.ffEnable = true ∧
      dueAtOne.node.sched.active = some (1, sched) ∧ sched.ffAllowed = true ∧
      dueAtOne.node.gap.base = some 15000 ∧
      dueAtOne.node.gap.cached ⟨sched.pclass, dueAtOne.node.meas.band⟩ = some ⟨⟨7, 0⟩, 2000, 0⟩ ∧
      (after (.encoderPulse .entry true false) dueAtOne).node.gap.ff = 200 ∧
      (after (.encoderPulse .entry true false) dueAtOne).node.gap.reference = 15200) := by
  simp only [State.live]
  decide +kernel

/-- Records due at count 1, the first to wait on a coefficient that the cache does not hold. -/
def missing (queue : List ParamOp) (dues : List Pos) : State :=
  upd dueAtOne (fun n => { n with
    track := { n.track with arrival := dues.map (segRecord (segment 7 0 500)) }
    gap := { n.gap with cache := (at_ .quiet).node.gap.cache, queue := queue } })

/-- The deferral of a record with its fill queued, in the queue already and wanted; with the record behind it
passed; and the application in a hold, with the record behind due and passed. -/
theorem test_meets_EncoderPulseMovesCount_defers :
    (∀ s ∈ [missing [] [1], missing [.fill ⟨7, 0⟩] [1], missing (List.replicate 4 (.write coef true)) [1],
        missing [] [1, 0]],
      s.live ∧ s.node.seq.stand = .rolling ∧ s.node.seq.holds.any = false ∧ s.node.track.headWaiting = false ∧
      s.node.gap.ffEnable = true ∧ s.node.sched.active = some (1, sched) ∧ sched.ffAllowed = true ∧
      s.node.gap.cached ⟨sched.pclass, s.node.meas.band⟩ = none ∧ s.roomFor 1 ∧
      (after (.encoderPulse .entry true false) s).node.track.headWaiting = true) ∧
    ((after (.encoderPulse .entry true false) (missing [] [1])).node.gap.queue = [.fill ⟨7, 0⟩] ∧
      (after (.encoderPulse .entry true false)
        (missing (List.replicate 4 (.write coef true)) [1])).node.gap.waiting = some ⟨⟨7, 0⟩, true⟩ ∧
      (after (.encoderPulse .entry true false) (missing [] [1, 0])).node.flt.counter .lateApplication = 1) ∧
    (∀ dues ∈ [[(1 : Pos), 0], [1, 1]],
      let s := upd (missing [] dues) (fun n => { n with
        seq := { n.seq with holds := ⟨true, false, false, false⟩ } })
      let t := after (.encoderPulse .entry true false) s
      s.live ∧ s.node.seq.holds.any = true ∧ s.node.sched.profile = none ∧ s.roomFor 1 ∧
      t.node.track.arrival = [] ∧ t.node.track.counts.applied = 2 ∧ t.node.gap.ff = s.node.gap.ff) ∧
    (passed 1 (0 : Pos) = true ∧ passed 1 (1 : Pos) = false ∧ reaches (1 : Pos) 1 = true) := by
  simp only [State.live, State.roomFor]
  decide +kernel

/-- A running profile of which two entries are reached at once, of which none is, and in a hold. -/
theorem test_meets_EncoderPulseMovesCount_profile :
    (let s := running 5 1 dueAtOne
     let t := after (.encoderPulse .entry true false) s
     s.live ∧ s.node.sched.profileOf 1 = [(1, 50), (2, -20), (5, 7)] ∧
      entryReached 5 7 2 = true ∧ entryReached 5 7 5 = false ∧
      t.node.sched.profile = some ⟨5, 1, 3⟩ ∧ t.node.gap.profileTrim = -20 ∧
      t.node.gap.reference = 15180) ∧
    (let s := running 7 1 dueAtOne
     s.live ∧ entryReached 7 7 1 = false ∧
      (after (.encoderPulse .entry true false) s).node.sched.profile = some ⟨7, 1, 1⟩) ∧
    (let s := upd (running 5 1 dueAtOne) (fun n => { n with
        seq := { n.seq with holds := ⟨true, false, false, false⟩ } })
     let t := after (.encoderPulse .entry true false) s
     s.live ∧ t.node.gap.profileTrim = -20 ∧ t.node.gap.reference = 15000) := by
  simp only [State.live]
  decide +kernel

/-- ROLLING with an open segment and an empty FIFO, one pulse before an EXIT count. -/
def nearing (here : Pos) : State :=
  upd (sampling []) (fun n => { n with meas := { n.meas with exitCount := here - 1 } })

/-- A segment whose span end the EXIT count less G reaches on the pulse, alone and with the next; a pulse short
of it; and with a reversal record whose recovery is not reached. -/
theorem test_meets_EncoderPulseMovesCount_closes :
    (∀ s ∈ [nearing (mm 1500), nearing (mm 2500)],
      s.live ∧ s.node.track.openSeg = some seg0 ∧ s.node.meas.fifo = [] ∧ s.node.meas.reversal = none ∧
      s.node.track.exitTrack = [] ∧ s.node.sched.active = some (1, sched)) ∧
    (reaches (mm 1500 - mm 500) (seg0.spanStart + mm 1000) = true ∧
      (mm 2500 - mm 500 - (seg0.spanStart + mm 1000)).toNat / 1000 = 1 ∧
      reaches (mm 1499 - mm 500) (seg0.spanStart + mm 1000) = false ∧
      reaches (mm 1500) (mm 900 + mm 1000) = false) := by
  simp only [State.live]
  decide +kernel

theorem test_close_on_count :
    (after (.encoderPulse .exit true false) (nearing (mm 2500))).node.track.exitTrack.map (·.number) =
      [7, 8] := by decide +kernel

/-- ROLLING with a reversal record of a high mark and holds. -/
def reversed (high : Pos) (holds : Holds) : State :=
  upd (held .rolling holds 60) (fun n => { n with meas := { n.meas with reversal := some high } })

/-- The recovery of R76 reached on the pulse, one pulse short of it, and a further reversal. -/
theorem test_meets_EncoderPulseMovesCount_recovery :
    (∀ s ∈ [reversed (1 - mm 1000) ⟨false, false, true, false⟩,
        reversed (2 - mm 1000) ⟨false, false, true, true⟩],
      s.live ∧ s.node.seq.stand.strip = true ∧ s.node.pins.encoder .exit = (false, false) ∧
      s.node.track.openSeg = none ∧ s.node.track.exitTrack = [] ∧ s.node.meas.exitCount = 0 ∧
      s.settings.config.segLength = 1000) ∧
    (reaches 1 ((1 - mm 1000) + mm 1000) = true ∧ reaches 1 ((2 - mm 1000) + mm 1000) = false) ∧
    (reversed (1 - mm 1000) ⟨false, false, true, false⟩).node.holdEndsAt Holds.empty = true ∧
    recoveryDue (at_ .rolling).settings
      (reversed (1 - mm 1000) ⟨false, false, true, false⟩).node.meas.exitForward = true ∧
    (reversed (1 - mm 1000) ⟨false, false, true, true⟩).node.holdEndsAt ⟨false, false, false, true⟩ =
      false ∧
    (let t := after (.encoderPulse .exit false true) (reversed 9 ⟨false, false, true, false⟩)
     t.node.meas.reversal = some 0 ∧ t.node.flt.counter .encoderReverse = 0) := by
  simp only [State.live]
  decide +kernel

/-- ROLLING with one record, due at count 1, that carries flags. -/
def dueWith (flags : Byte) : State :=
  upd (at_ .rolling) (fun n => { n with track := { n.track with
    arrival := [segRecord (segment 7 flags 500) 1], expected := some 8 } })

/-- With schedule 2 armed. -/
def armed (s : State) : State := after (.nextSchedule hdr 2) s

/-- One record due that carries TAIL, in ROLLING and THREADING, and one that carries WELD, without and with a
slot PENDING; weld marks without room, and beside an open segment. -/
theorem test_meets_EncoderPulseMovesCount_due :
    (let s := dueWith 4
     s.live ∧ s.node.seq.stand = .rolling ∧ s.node.gap.ffEnable = false ∧
      s.node.track.arrival = [segRecord (segment 7 4 500) 1] ∧
      (segRecord (segment 7 4 500) 1).tail = true ∧ (segRecord (segment 7 4 500) 1).weld = false ∧
      (after (.encoderPulse .entry true false) s).node.seq.stand = .tailing) ∧
    (upd (dueWith 4) (fun n => { n with seq := { n.seq with stand := .threading } })).node.seq.stand =
      .threading ∧
    (∀ s ∈ [dueWith 2, armed (dueWith 2)], s.live ∧ s.node.seq.stand = .rolling ∧
      s.node.seq.holds.any = false ∧ s.node.track.headWaiting = false ∧ s.node.gap.ffEnable = false ∧
      s.node.track.arrival = [segRecord (segment 7 2 500) 1] ∧
      reaches (s.node.meas.entryCount + 1) 1 = true ∧ (segRecord (segment 7 2 500) 1).weld = true ∧
      (segRecord (segment 7 2 500) 1).tail = false ∧ s.node.sched.active = some (1, sched) ∧
      s.node.gap.base = some 15000 ∧ s.roomFor 0 ∧ s.node.track.weldList = []) ∧
    ((dueWith 2).node.sched.pendingSlot = none ∧
      (armed (dueWith 2)).node.sched.pendingSlot = some (2, sched) ∧
      (after (.encoderPulse .entry true false) (armed (dueWith 2))).node.sched.flyingChanges = 1) ∧
    (let s := upd (dueWith 2) (fun n => { n with track := { n.track with
        weldList := List.replicate 4 ⟨0, 1⟩ } })
     s.live ∧ 4 ≤ s.node.track.weldList.length) ∧
    (let s := fun here => upd (dueWith 2) (fun n => { n with
        track := { n.track with openSeg := some seg0 }, meas := { n.meas with exitCount := here } })
     (s 0).node.track.openSeg = some seg0 ∧
      passed (seg0.spanStart + mm (s 0).settings.config.segLength) (s 0).node.meas.exitCount = true ∧
      passed (seg0.spanStart + mm (s 0).settings.config.segLength) (mm 1000) = false) := by
  simp only [State.live, State.roomFor]
  decide +kernel

/-- The laws of the reference in the states of the coil change and the flying change. -/
theorem test_meets_EncoderPulseMovesCount_law (s : State) (h : s = dueWith 2 ∨ s = armed (dueWith 2)) :
    s.gapLaw ∧ within sched (15000 + s.node.gap.ff + s.node.gap.monitor + s.node.gap.gapTrim) ∧
    within sched (15000 + s.node.gap.gapTrim + s.node.gap.profileTrim) := by
  have key : ∀ s ∈ [dueWith 2, armed (dueWith 2)],
      (∀ x ∈ listFour s.node.sched.slots, ∀ r ∈ x.record, r.valid = true) ∧
      s.node.sched.active = some (1, sched) ∧ s.node.gap.base = some 15000 ∧
      s.node.gap.reference = 15000 ∧ s.node.gap.ff = 0 ∧ s.node.gap.monitor = 0 ∧
      s.node.gap.gapTrim = 0 ∧ s.node.gap.profileTrim = 0 := by decide +kernel
  obtain ⟨hv, ha, hb, hr, h1, h2, h3, h4⟩ := key s (by simpa using h)
  refine ⟨⟨hv, fun _ => ⟨by rw [ha]; rfl, by rw [hb]; rfl⟩, fun _ _ id r h => ?_⟩, ?_, ?_⟩
  · rw [ha] at h
    cases h
    rw [hr]
    decide
  · rw [h1, h2, h3]
    unfold within
    decide
  · rw [h3, h4]
    unfold within
    decide

/-- ROLLING with an exit record that is due at EXIT count 1. -/
def publishing (number : Half) : State :=
  upd (at_ .rolling) (fun n => { n with track := { n.track with exitTrack :=
    [⟨number, 3, some 5, 10, true, false, false, false, false, 1, 0, 1⟩] } })

/-- A publication with and without a MARK, to a ring state that admits it and to one that does not. -/
theorem test_meets_EncoderPulseMovesCount_publish :
    (∀ s ∈ [publishing 8, publishing 9, ringAt .dark (publishing 8)],
      s.live ∧ s.node.meas.reversal = none ∧ s.node.track.openSeg = none ∧
      s.node.track.exitTrack.length = 1 ∧ (∀ x ∈ s.node.track.exitTrack,
        reaches (s.node.meas.exitCount + 1) x.due = true) ∧ s.roomFor 2) ∧
    (publishing 8).node.memb.ring.admits .seg = true ∧
    (ringAt .dark (publishing 8)).node.memb.ring.admits .seg = false ∧
    (publishing 8).settings.config.markInterval = 4 ∧
    (sent (after (.encoderPulse .exit true false) (publishing 8))).length = 2 ∧
    (sent (after (.encoderPulse .exit true false) (publishing 9))).length = 1 := by
  simp only [State.live, State.roomFor]
  decide +kernel

theorem test_meets_SupervisionTimersExpire :
    ((placed .quiet 0 .moving 20000).live ∧ (placed .quiet 0 .moving 20000).node.gap.timer = some 0 ∧
      (placed .quiet 0 .moving 20000).node.seq.stand.strip = false) ∧
    (let s := ranOut (after (.standCommandPreset hdr) (at_ .quiet))
     s.live ∧ s.node.seq.stand = .preset ∧ s.node.gap.supervision = .moving ∧
      s.node.gap.timer = some 0 ∧ s.roomFor 2 ∧ s.node.memb.ring.admits .reply = true ∧
      (s.node.dir.table.find? isPreset).isSome = true) ∧
    ((placed .threading 0 .moving 25000).node.seq.stand.strip = true ∧
      (placed .threading 0 .moving 25000).node.untripped) ∧
    (placed .quiet 0 .idle 0).node.gap.supervision ≠ .moving ∧ tripped.node.gap.timer ≠ some 0 ∧
    ((ranOut tripped).live ∧ (ranOut tripped).node.gap.supervision = .retracting ∧
      (ranOut tripped).node.gap.timer = some 0 ∧ (ranOut tripped).node.seq.stand = .tripped ∧
      tripped.node.trip.recorded tripped.settings.station = true) ∧
    (let s := upd (ranOut tripped) (fun n => { n with seq := { n.seq with stand := .lockout } })
     s.live ∧ s.node.seq.stand.stopped = true ∧ s.node.gap.supervision = .retracting ∧ s.roomFor 1) := by
  simp only [State.live, State.roomFor, Node.untripped]
  decide +kernel

theorem test_meets_ParameterOperationEnds :
    ((at_ .quiet).live ∧ (at_ .quiet).node.gap.queue = []) ∧
    (let s := after (.coefEntryRead hdr 63 7) (at_ .quiet)
     s.live ∧ s.node.gap.queue = [.fill ⟨63, 7⟩] ∧ s.node.gap.waiting = none ∧
      s.node.memb.ring.admits .reply = true ∧
      recordRead ⟨63, 7⟩ (memReadBytes (memTake s.paramMem (CoefTag.offset ⟨63, 7⟩) 9
        (.delivered coef.bytes)) (CoefTag.offset ⟨63, 7⟩) 9) = some coef ∧
      recordRead ⟨63, 7⟩ (memReadBytes (memTake s.paramMem (CoefTag.offset ⟨63, 7⟩) 9 .stored)
        (CoefTag.offset ⟨63, 7⟩) 9) = none) ∧
    (let s := after (.coefEntryWrite hdr 63 7 0xF830 1000) (at_ .quiet)
     s.live ∧ s.node.gap.queue = [.write coef true] ∧ s.node.gap.waiting = none ∧
      s.node.memb.ring.admits .reply = true ∧ s.roomFor 2 ∧ s.node.gap.opTimer = some 20 ∧
      (ranOut s).node.gap.opTimer = some 0) := by
  simp only [State.live, State.roomFor]
  decide +kernel

/-- A write whose entry a soft reset has taken away. -/
theorem test_meets_ParameterOperationEnds_orphan :
    let s := after (.nodeReset hdr 1) (after (.coefEntryWrite hdr 63 7 0xF830 1000) (at_ .quiet))
    s.live ∧ s.node.gap.queue = [.write coef false] ∧ s.node.gap.waiting = none ∧ s.roomFor 1 := by
  simp only [State.live, State.roomFor]
  decide +kernel

/-- ROLLING with one record due whose tag a fill reads, and behind it a full queue. -/
def awaiting (tag : CoefTag) (wanted : Bool) (queue : List ParamOp) : State :=
  upd dueAtOne (fun n => { n with gap := { n.gap with
    waiting := some ⟨tag, wanted⟩, queue := queue, opTimer := some 0 } })

/-- An application that waits: on its own tag, on another, and with its fill still wanted. -/
theorem test_meets_ParameterOperationEnds_waiting :
    (let s := awaiting ⟨63, 7⟩ false [.fill ⟨63, 7⟩]
     s.live ∧ s.node.seq.stand = .rolling ∧ s.node.seq.holds.any = false ∧
      s.node.gap.ffEnable = true ∧ s.node.sched.active = some (1, sched) ∧ sched.ffAllowed = true ∧
      s.node.gap.base = some 15000 ∧ s.node.track.arrival = [segRecord (segment 7 0 500) 1] ∧
      (segRecord (segment 7 0 500) 1).deviation = some 100 ∧ s.node.gap.ff = 0 ∧
      s.node.memb.ring.admits .reply = true ∧ s.roomFor 2 ∧
      recordRead ⟨63, 7⟩ (memReadBytes (memTake s.paramMem (CoefTag.offset ⟨63, 7⟩) 9
        (.delivered coef.bytes)) (CoefTag.offset ⟨63, 7⟩) 9) = some coef ∧
      recordRead ⟨63, 7⟩ (memReadBytes (memTake s.paramMem (CoefTag.offset ⟨63, 7⟩) 9 .stored)
        (CoefTag.offset ⟨63, 7⟩) 9) = none ∧
      (after (.fillComplete (.delivered coef.bytes)) s).node.gap.ff = -200) ∧
    (let s := awaiting ⟨7, 0⟩ false [.fill ⟨63, 7⟩]
     s.live ∧ s.node.gap.waiting = some ⟨⟨7, 0⟩, false⟩) ∧
    (let s := awaiting ⟨7, 0⟩ true (List.replicate 4 (.write coef true))
     s.live ∧ s.node.gap.waiting = some ⟨⟨7, 0⟩, true⟩) := by
  simp only [State.live, State.roomFor]
  decide +kernel

/-- A level of a line, in a stand state. -/
def lineAt (stand : StandState) (level : Bool) : State :=
  upd (at_ stand) (fun n => { n with pins := { n.pins with lines := ⟨level, level, level, level⟩ } })

theorem test_meets_InputLinesTripStand :
    ((lineAt .rolling true).live ∧ getFour (lineAt .rolling true).node.pins.lines 3 = true) ∧
    ((lineAt .starting false).node.seq.stand = .starting ∧
      getFour (lineAt .starting false).node.pins.lines 0 ≠ true) ∧
    ((getFour (at_ .rolling).settings.config.lines 0).sense = .rising ∧
      (getFour (at_ .rolling).settings.config.lines 1).sense = .falling ∧
      (getFour (at_ .rolling).settings.config.lines 2).sense = .high ∧
      (getFour (at_ .rolling).settings.config.lines 2).enabled = true ∧
      (getFour (at_ .rolling).settings.config.lines 3).sense = .low ∧
      (getFour (at_ .rolling).settings.config.lines 3).enabled = false) ∧
    ((lineAt .rolling false).node.untripped ∧
      (getFour (lineAt .rolling false).node.trip.lines 2).flag = false ∧
      (lineAt .rolling false).roomFor 1) ∧
    (tripped.node.seq.stand.stopped = true ∧ getFour tripped.node.pins.lines 2 ≠ true ∧
      (getFour tripped.node.trip.lines 2).flag = false ∧
      tripped.node.trip.recorded tripped.settings.station = true) ∧
    ((at_ .rolling).node.pins.loopClosed = true ∧ (at_ .rolling).node.untripped ∧
      cleared.node.pins.loopClosed = false ∧ tripped.node.trip.active.isSome = true ∧
      (at_ .lockout).node.seq.stand = .lockout) ∧
    ((at_ .rolling).node.pins.servoFlt = false ∧ (at_ .starting).node.seq.stand = .starting ∧
      cleared.live ∧ cleared.node.pins.servoFlt = false ∧ cleared.node.seq.stand = .tripped) := by
  simp only [State.live, State.roomFor, Node.untripped]
  decide +kernel

/-- A line in TRIPPED and LOCKOUT with no own origin held, and the loop opening in TRIPPED with none at all. -/
theorem test_meets_InputLinesTripStand_further :
    (∀ st ∈ [StandState.tripped, .lockout],
      (lineAt st false).live ∧ (lineAt st false).node.seq.stand.stopped = true ∧
      (lineAt st false).node.trip.recorded (lineAt st false).settings.station = false ∧
      (getFour (lineAt st false).node.trip.lines 2).flag = false ∧ (lineAt st false).roomFor 0) ∧
    ((at_ .tripped).node.pins.loopClosed = true ∧ (at_ .tripped).node.trip.active = none ∧
      (after .loopOpen (at_ .tripped)).node.trip.active.isSome = true) := by
  simp only [State.live, State.roomFor]
  decide +kernel

theorem test_meets_LoopClosingEndsTrip :
    (cleared.live ∧ cleared.node.pins.loopClosed = false ∧ cleared.node.seq.stand = .tripped ∧
      cleared.node.trip.active.isNone = true ∧ cleared.node.trip.pending.isNone = true ∧
      cleared.node.trip.dropped = 0 ∧ cleared.node.gap.supervision = .retracted ∧
      cleared.node.pins.servoFlt = false) ∧
    (at_ .rolling).node.pins.loopClosed = true ∧
    (upd cleared (fun n => { n with pins := { n.pins with servoFlt := true } })).node.pins.servoFlt =
      true := by
  simp only [State.live]
  decide +kernel

end Sys2Proof.Tests
end

section
/-! SUPPORT. IDENT (R59): what a read of it makes of the node, and which steps can change the settings that it
shows. -/

namespace Sys2Proof.Machine

/-! ## The read -/

/-- A frame that is no orphan joins a pass-through buffer with room, and a free link is served (R10, R12). -/
theorem forward_passes (c : Settings) {f : Frame} {n : Node} (hh : f.hop + 1 < 32)
    (hp : n.ring.passBuffer.length < 6) :
    forward c f n = pump c { n with ring := { n.ring with
      passBuffer := n.ring.passBuffer ++ [{ f with hop := f.hop + 1 }] } } := by
  have hor : isOrphan f = false := by
    simp only [isOrphan, decide_eq_false_iff_not]
    omega
  simp [forward, hor, hp]

/-- IDENT, where it is not closed, is settled as the read object it is built as (R44, R45). -/
theorem settledClass_ident {c : Settings} (ho : c.config.closures.getD 0 .openTo = .openTo) :
    settledClass c 0 = some .read := by
  unfold settledClass
  rw [ho]
  rfl

/-- A read of IDENT is answered DONE with the five values, whatever byte 1 of its argument (R48, R59). -/
theorem readRequest_ident {c : Settings} (ho : c.config.closures.getD 0 .openTo = .openTo) (h : Header)
    (arg : Byte) (n : Node) :
    readRequest c h 0 arg 0 n = reply c h.source h.tag 0 .done (readIdent c) n := by
  have hr : readRefused c 0 = none := by simp [readRefused, settledClass_ident ho]
  show (match readRefused c 0 with
    | some st => answer c h 0 st n
    | none => reply c h.source h.tag 0 .done (readIdent c) n) = _
  rw [hr]

/-- An RDREQ for IDENT that is handed on is that read (R11, Table 1-2). -/
theorem deliver_identRead {c : Settings} {f : Frame} {arg : Byte} {n : Node} (hk : f.kind = .rdreq)
    (hp : f.payload = [0, arg, 0]) (hh : handed c f.source f.dest n = true)
    (ho : c.config.closures.getD 0 .openTo = .openTo) :
    deliver c f n = reply c f.source f.tag 0 .done (readIdent c) n := by
  simp only [deliver, hk, hp, rdreqPayload, readArrives, Frame.header, hh, if_true]
  exact readRequest_ident ho _ _ _

/-- A frame that is handed on comes from another station, to a node that has left STARTING (R6, R11). -/
theorem foreign_of_hands {s : State} {h : Header} (hh : s.hands h) :
    h.source ≠ byte s.settings.station ∧ s.node.seq.stand ≠ .starting := by
  simp only [State.hands, handed, Bool.and_eq_true, decide_eq_true_eq] at hh
  obtain ⟨⟨⟨⟨_, hsource⟩, _⟩, _⟩, hstand⟩ := hh
  exact ⟨hsource, hstand⟩

/-- The node once it has forwarded a request and offered the REPLY to it. -/
def passedAndReplied (c : Settings) (f : Frame) (index : Nat) (value : List Byte) (n : Node) : Node :=
  reply c f.source f.tag index .done value (forward c f n)

/-- The whole arrival of a read of IDENT (R10, R11, R48). -/
theorem exec_identRead {s : State} {bytes : List Byte} {f : Frame} {arg : Byte} (hl : s.live)
    (hj : judgeArrival bytes = .intact f) (hk : f.kind = .rdreq) (hp : f.payload = [0, arg, 0])
    (hh : s.hands f.header) (hhop : f.hop + 1 < 32) (hroom : s.node.ring.passBuffer.length < 6)
    (ho : s.settings.config.closures.getD 0 .openTo = .openTo) :
    exec (.frameArrival bytes) s = .next (s.withNode (finish s.settings
      (passedAndReplied s.settings f 0 (readIdent s.settings) s.node))) := by
  obtain ⟨hforeign, hstand⟩ := foreign_of_hands hh
  have hlive : (s.withNode (forward s.settings f s.node)).live := by
    simpa [State.live, forward_startup] using hl
  have hhanded : handed s.settings f.source f.dest (forward s.settings f s.node) = true := by
    rw [forward_passes _ hhop hroom]; exact hh
  rw [frameArrival_foreign hj hstand hforeign hhop hl, act_live _ hlive]
  simp only [withNode_settings, withNode_node, withNode_withNode, deliver_identRead hk hp hhanded ho,
    passedAndReplied]

/-- Forwarding and a REPLY touch the Ring Port and the Fault Unit only. -/
theorem passedAndReplied_keeps (c : Settings) {f : Frame} (index : Nat) (value : List Byte) {n : Node}
    (hhop : f.hop + 1 < 32) (hroom : n.ring.passBuffer.length < 6) :
    n.keepsBut [.ring, .flt] (passedAndReplied c f index value n) := by
  unfold passedAndReplied
  rw [forward_passes _ hhop hroom]
  intro b hb
  cases b with
  | ring | flt => simp at hb
  | _ => rfl

/-- With the link busy and room in the queue, the frame is the last to pass through and the REPLY the last of
the insert queue (R12, R14). -/
theorem finish_passedAndReplied_room {s : State} {f : Frame} (index : Nat) (value : List Byte)
    (hh : s.hands f.header) (hhop : f.hop + 1 < 32) (hroom : s.node.ring.passBuffer.length < 6)
    (hr : s.roomFor 1) :
    finish s.settings (passedAndReplied s.settings f index value s.node) =
      { s.node with ring := { s.node.ring with
          passBuffer := s.node.ring.passBuffer ++ [{ f with hop := f.hop + 1 }]
          insertQueue := s.node.ring.insertQueue ++ [replyFrame f.source f.tag index .done value] } } := by
  obtain ⟨hbusy, hwaits, hqueue⟩ := hr
  have hadmits := admits_of_hands hh (replyFrame f.source f.tag index .done value).kind
  unfold passedAndReplied reply
  rw [forward_passes _ hhop hroom, pump_busy _ _ (by exact hbusy),
    offerNow_room _ _ _ (by exact hbusy) (by exact hwaits) (by exact hqueue) (by exact hadmits) rfl,
    finish_quiet _ _ (by exact hbusy) (by exact hwaits)]

/-! ## The settings -/

variable {s t : State}

/-- A command that acts on the node keeps the settings. -/
theorem act_settings {g : Settings → Node → Node} (h : s.act g = .next t) : t.settings = s.settings := by
  unfold State.act at h
  cases h
  split <;> rfl

/-- A command that gives the input lines new levels keeps the settings. -/
theorem input_settings {p : Pins} {g : Settings → Pins → Node → Node} (h : s.input p g = .next t) :
    t.settings = s.settings := by
  unfold State.input at h
  cases h
  split <;> rfl

/-- The end of the image's read is no acceptance outside the read of the image (R190). -/
theorem configReadEnd_settings {image : MemRead} (hr : s.node.startup.phase ≠ .reading)
    (h : execConfigReadEnd image s = .next t) : t.settings = s.settings := by
  unfold execConfigReadEnd at h
  rw [if_neg hr] at h
  cases h
  rfl

theorem configReadTimeout_settings (h : execConfigReadTimeout s = .next t) : t.settings = s.settings := by
  unfold execConfigReadTimeout at h
  cases h
  split <;> rfl

theorem fillComplete_settings {record : MemRead} (h : execFillComplete record s = .next t) :
    t.settings = s.settings := by
  unfold execFillComplete at h
  split at h
  · cases h; rfl
  · exact (act_settings h :)

theorem coefWriteComplete_settings (h : execCoefWriteComplete s = .next t) : t.settings = s.settings := by
  unfold execCoefWriteComplete at h
  split at h
  · exact (act_settings h :)
  · cases h; rfl

/-- Of all commands, only the end of a reset and an image read to its end can change the straps and the
configuration (R189, R190). -/
theorem exec_settings {i : Instr} (hend : ∀ station wp, i ≠ .resetEnd station wp)
    (hread : ∀ image, i = .configReadEnd image → s.node.startup.phase ≠ .reading)
    (h : exec i s = .next t) : t.settings = s.settings := by
  cases i with
  | resetAssert pin => cases h; rfl
  | resetEnd station wp => exact absurd rfl (hend station wp)
  | configReadEnd image => exact configReadEnd_settings (hread image rfl) h
  | configReadTimeout => exact configReadTimeout_settings h
  | fillComplete record => exact fillComplete_settings h
  | coefWriteComplete => exact coefWriteComplete_settings h
  | carrierLock | carrierLoss | measuringChange | encoderPulse | tripLineChange | loopOpen | loopClosing
  | servoFlt =>
    simp only [exec] at h
    exact input_settings h
  | _ =>
    simp only [exec] at h
    exact act_settings h

/-- Neither the placing of due events nor a millisecond changes the settings. -/
theorem idle_settings (s : State) : s.idle.settings = s.settings := by
  unfold State.idle State.tick
  split
  · rfl
  · split <;> rfl

/-- A step changes the settings only where the front command ends a reset, or ends the read of an image. -/
theorem step_settings (hend : ∀ station wp rest, s.pending ≠ .resetEnd station wp :: rest)
    (hread : ∀ image rest, s.pending = .configReadEnd image :: rest → s.node.startup.phase ≠ .reading)
    (h : step s = .next t) : t.settings = s.settings := by
  unfold step at h
  split at h
  next => cases h; exact idle_settings s
  next i rest hq =>
    exact exec_settings (s := { s with pending := rest }) (fun station wp hi => hend station wp rest (hi ▸ hq))
      (fun image hi => hread image rest (hi ▸ hq)) h

/-- Settles O24: the arrival is the forwarding and the REPLY of IDENT's five values, and no command but a
reset's end and an image's reaches the settings. -/
theorem identReadsFixedValues : Obligations.IdentReadsFixedValues := by
  refine ⟨?read, fun s t h hend hread => step_settings hend hread h⟩
  intro bytes f arg s hl hj hk hp hh hhop hroom ho
  refine ⟨_, exec_identRead hl hj hk hp hh hhop hroom ho,
    keepsBut_finish (passedAndReplied_keeps _ _ _ hhop hroom) (by decide) (by decide), fun hr => ?_⟩
  rw [finish_passedAndReplied_room _ _ hh hhop hroom hr]
  exact ⟨rfl, rfl⟩

end Sys2Proof.Machine
end

section
/-! SUPPORT. SLOT_FREE (R131): the places of four things, the slots by the id they hold, and what the write makes
of the node. -/

namespace Sys2Proof.Machine

/-! ## Four things by their places -/

section Places

variable {α β : Type}

theorem getFour_ext {v w : Four α} (h : ∀ k, getFour v k = getFour w k) : v = w := by
  cases v; cases w
  congr 1
  · exact h 0
  · exact h 1
  · exact h 2
  · exact h 3

@[simp] theorem getFour_mapFour (f : α → β) (v : Four α) (k : Fin 4) :
    getFour (mapFour f v) k = f (getFour v k) := by
  fin_cases k <;> rfl

theorem getFour_setFour (v : Four α) (j k : Fin 4) (a : α) :
    getFour (setFour v k a) j = if j = k then a else getFour v j := by
  fin_cases k <;> fin_cases j <;> rfl

/-- The list of four things runs over the places in order. -/
theorem listFour_eq_places (v : Four α) :
    listFour v = [getFour v 0, getFour v 1, getFour v 2, getFour v 3] := rfl

theorem any_listFour {p : α → Bool} {v : Four α} :
    (listFour v).any p = true ↔ ∃ k, p (getFour v k) = true := by
  simp [listFour_eq_places, Fin.exists_fin_succ]

/-- A map that changes the thing at one place only replaces that thing. -/
theorem mapFour_eq_setFour {f : α → α} {v : Four α} {k : Fin 4}
    (h : ∀ j, j ≠ k → f (getFour v j) = getFour v j) :
    mapFour f v = setFour v k (f (getFour v k)) := by
  apply getFour_ext
  intro j
  rw [getFour_mapFour, getFour_setFour]
  split
  next hjk => rw [hjk]
  next hjk => exact h j hjk

end Places

/-! ## Slots by the id they hold (R123) -/

theorem slotCount_eq_card (p : Slot → Bool) (v : Four Slot) :
    slotCount p v = (Finset.univ.filter (fun k => p (getFour v k) = true)).card := by
  rw [Finset.card_filter, Fin.sum_univ_four]
  simp only [slotCount, listFour_eq_places, List.countP_cons, List.countP_nil]
  omega

/-- By the law of the slots, an id has one place at most. -/
theorem place_unique_of_slotLaw {s : State} (hlaw : s.slotLaw) {id : Nat} {j k : Fin 4}
    (hj : (getFour s.node.sched.slots j).id = some id) (hk : (getFour s.node.sched.slots k).id = some id) :
    j = k := by
  obtain ⟨_, _, _, honce⟩ := hlaw
  have hcard := honce id
  rw [slotCount_eq_card, Finset.card_le_one] at hcard
  exact hcard j (by simpa using hj) k (by simpa using hk)

theorem Slot.loadedAs_iff {id : Nat} {x : Slot} : x.loadedAs id = true ↔ ∃ r, x = .loaded id r := by
  cases x <;> simp [Slot.loadedAs]

theorem SchedStore.hasLoaded_iff {s : SchedStore} {id : Nat} :
    s.hasLoaded id = true ↔ ∃ k r, getFour s.slots k = .loaded id r := by
  simp only [SchedStore.hasLoaded, any_listFour, Slot.loadedAs_iff]

theorem SchedStore.holdsId_iff {s : SchedStore} {id : Nat} :
    s.holdsId id = true ↔ ∃ k, (getFour s.slots k).id = some id := by
  simp only [SchedStore.holdsId, any_listFour, decide_eq_true_eq]

theorem Slot.free_loaded (id : Nat) (r : Schedule) : (Slot.loaded id r).free id = .empty := if_pos rfl

/-- SLOT_FREE passes over a slot that does not hold the id. -/
theorem Slot.free_of_id_ne {id : Nat} {x : Slot} (hx : x.id ≠ some id) : x.free id = x := by
  cases x with
  | loaded k r => exact if_neg (fun hk => hx (congrArg some hk))
  | empty | loading | pending | active => rfl

/-- By the law of the slots, SLOT_FREE of an id held LOADED empties its slot and no other. -/
theorem mapFour_free {s : State} (hlaw : s.slotLaw) {id : Nat} {k : Fin 4} {r : Schedule}
    (hk : getFour s.node.sched.slots k = .loaded id r) :
    mapFour (Slot.free id) s.node.sched.slots = setFour s.node.sched.slots k .empty := by
  have hid : (getFour s.node.sched.slots k).id = some id := by rw [hk]; rfl
  have hothers : ∀ j, j ≠ k →
      (getFour s.node.sched.slots j).free id = getFour s.node.sched.slots j :=
    fun j hjk => Slot.free_of_id_ne (fun hj => hjk (place_unique_of_slotLaw hlaw hj hid))
  rw [mapFour_eq_setFour hothers, hk, Slot.free_loaded]

/-! ## The write -/

section Write

variable {s : State} (c : Settings) (h : Header) {id : Byte}

/-- The node with one slot emptied. -/
def Node.freed (n : Node) (k : Fin 4) : Node :=
  { n with sched := { n.sched with slots := setFour n.sched.slots k .empty } }

theorem writeSlotFree_loaded (hlaw : s.slotLaw) {k : Fin 4} {r : Schedule}
    (hk : getFour s.node.sched.slots k = .loaded id.toNat r) :
    writeSlotFree c h id s.node = answer c h 6 .done (s.node.freed k) := by
  unfold writeSlotFree
  rw [if_pos (SchedStore.hasLoaded_iff.mpr ⟨k, r, hk⟩), mapFour_free hlaw hk, Node.freed]

/-- The one slot that holds the id holds it otherwise than LOADED. -/
theorem writeSlotFree_held (hlaw : s.slotLaw) {k : Fin 4}
    (hk : (getFour s.node.sched.slots k).id = some id.toNat)
    (hnot : ∀ r, getFour s.node.sched.slots k ≠ .loaded id.toNat r) :
    writeSlotFree c h id s.node = answer c h 6 .state s.node := by
  have hunloaded : ¬ s.node.sched.hasLoaded id.toNat = true := by
    rw [SchedStore.hasLoaded_iff]
    rintro ⟨j, r, hj⟩
    have hjk : j = k := place_unique_of_slotLaw hlaw (by rw [hj]; rfl) hk
    exact hnot r (hjk ▸ hj)
  unfold writeSlotFree
  rw [if_neg hunloaded, if_pos (SchedStore.holdsId_iff.mpr ⟨k, hk⟩)]

theorem writeSlotFree_absent {n : Node} (hno : ∀ k, (getFour n.sched.slots k).id ≠ some id.toNat) :
    writeSlotFree c h id n = answer c h 6 .range n := by
  have hunloaded : ¬ n.sched.hasLoaded id.toNat = true := by
    rw [SchedStore.hasLoaded_iff]
    rintro ⟨k, r, hk⟩
    exact hno k (by rw [hk]; rfl)
  have hunheld : ¬ n.sched.holdsId id.toNat = true := by
    rw [SchedStore.holdsId_iff]
    rintro ⟨k, hk⟩
    exact hno k hk
  unfold writeSlotFree
  rw [if_neg hunloaded, if_neg hunheld]

theorem freed_keepsBut (n : Node) (k : Fin 4) : n.keepsBut [.sched, .ring, .flt] (n.freed k) := by
  intro b hb
  cases b with
  | sched => simp at hb
  | _ => rfl

/-- A write answered with no other effect changes nothing, the transmit side apart. -/
theorem answered_unchanged {h : Header} (hh : s.hands h) (index : Nat) (status : Status) :
    let t := s.withNode (finish s.settings (answer s.settings h index status s.node))
    s.keepsBut [.ring, .flt] t ∧ s.offers [answerFrame h (byte index) status.code] t :=
  ⟨keepsBut_answer (Node.keepsBut_refl _) (by decide) (by decide), offers_answer hh rfl rfl rfl rfl⟩

end Write

/-- Settles O41: by what the slots hold under the id, which by the law of the slots is at one place at most. -/
theorem slotFreeEmptiesLoadedSlot : Obligations.SlotFreeEmptiesLoadedSlot := by
  intro h id s hl ha hlaw
  have hh : s.hands h := ha.1
  refine ⟨_, exec_slotFree h id hl ha, fun hno => ?absent, fun k hk => ⟨?loaded, fun hnot => ?held⟩⟩
  case absent =>
    rw [writeSlotFree_absent _ _ hno]
    exact answered_unchanged hh 6 .range
  case loaded =>
    rintro ⟨r, hr⟩
    rw [writeSlotFree_loaded _ _ hlaw hr]
    exact ⟨rfl, keepsBut_answer (freed_keepsBut _ _) (by decide) (by decide),
      offers_answer hh rfl rfl rfl rfl⟩
  case held =>
    rw [writeSlotFree_held _ _ hlaw hk hnot]
    exact answered_unchanged hh 6 .state

end Sys2Proof.Machine
end

section
/-! SUPPORT. What a command answers: each goes on, the four rows of start-up apart as an act of the node that
ends with waiting events handled and a free link served, and what that settles of the memory, the fault events
and the link. -/

namespace Sys2Proof.Machine

set_option Elab.async false

variable {s t : State}

/-- The rows of start-up that act on the machine whole: they end no command's act (R188 to R190). -/
def startupRow : Instr → Bool
  | .resetAssert _ | .resetEnd _ _ | .configReadEnd _ | .configReadTimeout => true
  | _ => false

/-- What the other rows make of the machine: nothing, new levels of the input lines in a reset, or outside one
an act of the node that is finished; beside it the parameter memory may take bytes over. -/
def Acts (s t : State) : Prop :=
  ∃ mem, (memWf s.paramMem = true → memWf mem = true) ∧
    ((∃ p, t = { s with paramMem := mem, node := s.node.withPins p } ∧ (s.live → p = s.node.pins ∧ mem = s.paramMem)) ∨
      s.live ∧ ∃ m, t = { s with paramMem := mem, node := finish s.settings m })

/-- A command without effect. -/
theorem acts_void : Acts s s := ⟨s.paramMem, id, .inl ⟨s.node.pins, rfl, fun _ => ⟨rfl, rfl⟩⟩⟩

/-- A command that acts on the node, once the memory has taken bytes over. -/
theorem acts_act {mem : List Host.Cell} {g : Settings → Node → Node}
    (hmem : memWf s.paramMem = true → memWf mem = true)
    (h : ({ s with paramMem := mem } : State).act g = .next t) : Acts s t := by
  refine ⟨mem, hmem, ?_⟩
  by_cases hl : s.live
  · rw [State.act_live _ _ (by exact hl)] at h
    cases h
    exact .inr ⟨hl, _, rfl⟩
  · rw [State.act_reset _ _ (by exact hl)] at h
    cases h
    exact .inl ⟨s.node.pins, rfl, fun k => absurd k hl⟩

theorem acts_plain {g : Settings → Node → Node} (h : s.act g = .next t) : Acts s t :=
  acts_act (mem := s.paramMem) id h

/-- A command that gives the input lines new levels. -/
theorem acts_input {p : Pins} {g : Settings → Pins → Node → Node} (h : s.input p g = .next t) : Acts s t := by
  refine ⟨s.paramMem, id, ?_⟩
  by_cases hl : s.live
  · rw [State.input_live _ _ _ hl] at h
    cases h
    exact .inr ⟨hl, _, rfl⟩
  · rw [State.input_reset _ _ _ hl] at h
    cases h
    exact .inl ⟨p, rfl, fun k => absurd k hl⟩

theorem acts_fillComplete {record : MemRead} (h : execFillComplete record s = .next t) : Acts s t := by
  unfold execFillComplete at h
  split at h
  · cases h; exact acts_void
  · exact acts_act (memWf_memTake _ _ _ _) h

theorem acts_coefWriteComplete (h : execCoefWriteComplete s = .next t) : Acts s t := by
  unfold execCoefWriteComplete at h
  split at h
  · exact acts_act (memWf_memWriteBytes _ _ _) h
  · cases h; exact acts_void

/-- Every command other than the four rows of start-up acts so. -/
theorem exec_acts {i : Instr} (hi : startupRow i = false) (h : exec i s = .next t) : Acts s t := by
  cases i with
  | resetAssert | resetEnd | configReadEnd | configReadTimeout => cases hi
  | fillComplete record => exact acts_fillComplete h
  | coefWriteComplete => exact acts_coefWriteComplete h
  | carrierLock | carrierLoss | measuringChange | encoderPulse | tripLineChange | loopOpen | loopClosing
  | servoFlt =>
    simp only [exec] at h
    exact acts_input h
  | _ =>
    simp only [exec] at h
    exact acts_plain h

/-- Neither an act nor new levels touch the settings or the queue of commands. -/
theorem Acts.kept (h : Acts s t) : t.settings = s.settings ∧ t.pending = s.pending := by
  obtain ⟨mem, _, ⟨p, rfl, _⟩ | ⟨_, m, rfl⟩⟩ := h <;> exact ⟨rfl, rfl⟩

/-! ## Every command goes on -/

theorem act_answers (g : Settings → Node → Node) : ∃ t, s.act g = .next t := ⟨_, rfl⟩

theorem input_answers (p : Pins) (g : Settings → Pins → Node → Node) : ∃ t, s.input p g = .next t := ⟨_, rfl⟩

theorem fillComplete_answers (record : MemRead) (s : State) : ∃ t, execFillComplete record s = .next t := by
  unfold execFillComplete
  split
  · exact ⟨_, rfl⟩
  · exact act_answers _

theorem coefWriteComplete_answers (s : State) : ∃ t, execCoefWriteComplete s = .next t := by
  unfold execCoefWriteComplete
  split
  · exact act_answers _
  · exact ⟨_, rfl⟩

/-- No command faults or is refused (log 24). -/
theorem exec_answers (i : Instr) (s : State) : ∃ t, exec i s = .next t := by
  cases i with
  | resetAssert | resetEnd | configReadEnd | configReadTimeout => exact ⟨_, rfl⟩
  | fillComplete record => exact fillComplete_answers record s
  | coefWriteComplete => exact coefWriteComplete_answers s
  | carrierLock | carrierLoss | measuringChange | encoderPulse | tripLineChange | loopOpen | loopClosing
  | servoFlt => simp only [exec]; exact input_answers _ _
  | _ => simp only [exec]; exact act_answers _

/-- An accepted image changes the settings, the memory and the node only. -/
theorem judgeImage_pending (im : List Byte) (s : State) : (judgeImage im s).pending = s.pending := by
  unfold judgeImage
  split <;> rfl

theorem configReadEnd_pending {image : MemRead} (h : execConfigReadEnd image s = .next t) :
    t.pending = s.pending := by
  unfold execConfigReadEnd at h
  cases h
  split
  · exact judgeImage_pending _ _
  · rfl

theorem configReadTimeout_pending (h : execConfigReadTimeout s = .next t) : t.pending = s.pending := by
  unfold execConfigReadTimeout at h
  cases h
  split <;> rfl

/-- Every command leaves the queue of commands to the step. -/
theorem exec_pending {i : Instr} (h : exec i s = .next t) : t.pending = s.pending := by
  cases hi : startupRow i with
  | false => exact (exec_acts hi h).kept.2
  | true =>
    cases i with
    | resetAssert | resetEnd => cases h; rfl
    | configReadEnd image => exact configReadEnd_pending h
    | configReadTimeout => exact configReadTimeout_pending h
    | _ => cases hi

/-- Settles O3: each meaning answers a next state, and none touches the queue. -/
theorem everyCommandAnswersNextState : Obligations.EveryCommandAnswersNextState := by
  intro i s
  obtain ⟨t, h⟩ := exec_answers i s
  exact ⟨t, h, exec_pending h⟩

/-! ## A step by its command -/

/-- What holds after every command and after every idle step holds after every step. -/
theorem step_induct {P : State → Prop} (h : step s = .next t) (hidle : s.pending = [] → P s.idle)
    (hexec : ∀ i rest, s.pending = i :: rest → exec i { s with pending := rest } = .next t → P t) : P t := by
  unfold step at h
  split at h
  next hq => cases h; exact hidle hq
  next i rest hq => exact hexec i rest hq h

/-- An idle step leaves the memory, and of the node it moves the free index and at most the timers. -/
theorem idle_cases (s : State) :
    s.idle = s ∨ s.live ∧ s.idle.settings = s.settings ∧ s.idle.paramMem = s.paramMem ∧
      ∃ k, s.idle.node = { s.node with freeIndex := k } ∨ s.idle.node = { tickNode s.node with freeIndex := k } := by
  unfold State.idle
  by_cases hr : s.inReset = true
  · exact .inl (if_pos hr)
  · rw [if_neg hr]
    have hl : s.live := by simpa [State.inReset, State.live] using hr
    right
    split
    · exact ⟨hl, rfl, rfl, _, .inr rfl⟩
    · exact ⟨hl, rfl, rfl, _, .inl rfl⟩

/-! ## The parameter memory -/

/-- When a reset abandons a write in service, the memory takes bytes over. -/
theorem memWf_abandonedMem (w : memWf s.paramMem = true) : memWf (abandonedMem s) = true := by
  unfold abandonedMem
  split
  · exact memWf_memWriteBytes _ _ _ w
  · exact w

theorem judgeImage_paramMem (im : List Byte) (s : State) : (judgeImage im s).paramMem = s.paramMem := by
  unfold judgeImage
  split <;> rfl

theorem memoryCanonical_configReadEnd {image : MemRead} (w : s.memoryCanonical)
    (h : execConfigReadEnd image s = .next t) : t.memoryCanonical := by
  unfold execConfigReadEnd at h
  cases h
  unfold State.memoryCanonical
  split
  · rw [judgeImage_paramMem]; exact memWf_memTake _ _ _ _ w
  · exact w

theorem memoryCanonical_configReadTimeout (w : s.memoryCanonical)
    (h : execConfigReadTimeout s = .next t) : t.memoryCanonical := by
  unfold execConfigReadTimeout at h
  cases h
  unfold State.memoryCanonical
  split <;> exact w

theorem exec_memoryCanonical {i : Instr} (w : s.memoryCanonical) (h : exec i s = .next t) :
    t.memoryCanonical := by
  cases hi : startupRow i with
  | false => obtain ⟨mem, hm, ⟨p, rfl, _⟩ | ⟨_, m, rfl⟩⟩ := exec_acts hi h <;> exact hm w
  | true =>
    cases i with
    | resetAssert => cases h; exact memWf_abandonedMem w
    | resetEnd => cases h; exact w
    | configReadEnd image => exact memoryCanonical_configReadEnd w h
    | configReadTimeout => exact memoryCanonical_configReadTimeout w h
    | _ => cases hi

/-- Settles O4: every command that writes the memory writes it byte by byte, in its canonical form. -/
theorem stepKeepsMemoryCanonical : Obligations.StepKeepsMemoryCanonical := by
  intro s t w h
  refine step_induct h (fun _ => ?_) (fun i rest _ hx => exec_memoryCanonical (by exact w) hx)
  obtain hs | ⟨_, _, hm, _⟩ := idle_cases s
  · rw [hs]; exact w
  · unfold State.memoryCanonical; rw [hm]; exact w

/-! ## The transmit link (R17) -/

/-- A Ring Port that holds no frame to send. -/
theorem powerOn_served (b : Byte) (m : RingState) : RingPort.powerOn.pump b m = RingPort.powerOn := by
  cases m <;> rfl

theorem finished_served (c : Settings) (m : Node) (mem : List Host.Cell) (q : List Instr) :
    State.linkServed { settings := c, paramMem := mem, node := finish c m, pending := q } :=
  finish_served c m

theorem linkServed_judgeImage {im : List Byte} (hs : s.linkServed) : (judgeImage im s).linkServed := by
  unfold judgeImage
  split
  · exact finish_served _ _
  · exact hs

theorem linkServed_configReadEnd {image : MemRead} (hs : s.linkServed)
    (h : execConfigReadEnd image s = .next t) : t.linkServed := by
  unfold execConfigReadEnd at h
  cases h
  split
  · exact linkServed_judgeImage (by exact hs)
  · exact hs

theorem linkServed_configReadTimeout (hs : s.linkServed) (h : execConfigReadTimeout s = .next t) :
    t.linkServed := by
  unfold execConfigReadTimeout at h
  cases h
  split <;> exact hs

/-- Outside a reset the four rows of start-up keep a served link, or begin a reset. -/
theorem linkServed_startupRow {i : Instr} (hi : startupRow i = true) (hs : s.live → s.linkServed)
    (h : exec i s = .next t) (ht : t.live) : t.linkServed := by
  have reading_live : s.node.startup.phase = .reading → s.live := fun hr => by
    unfold State.live; rw [hr]; decide
  cases i with
  | resetAssert => cases h; exact absurd rfl ht
  | resetEnd => cases h; exact powerOn_served _ _
  | configReadEnd image =>
    by_cases hr : s.node.startup.phase = .reading
    · exact linkServed_configReadEnd (hs (reading_live hr)) h
    · simp only [exec, execConfigReadEnd, if_neg hr] at h
      cases h; exact hs ht
  | configReadTimeout =>
    by_cases hr : s.node.startup.phase = .reading
    · exact linkServed_configReadTimeout (hs (reading_live hr)) h
    · simp only [exec, execConfigReadTimeout, if_neg hr] at h
      cases h; exact hs ht
  | _ => cases hi

theorem exec_linkServed {i : Instr} (hs : s.live → s.linkServed) (h : exec i s = .next t) (ht : t.live) :
    t.linkServed := by
  cases hi : startupRow i with
  | true => exact linkServed_startupRow hi hs h ht
  | false =>
    obtain ⟨mem, _, ⟨p, rfl, _⟩ | ⟨_, m, rfl⟩⟩ := exec_acts hi h
    · exact hs ht
    · exact finished_served _ _ _ _

/-- Settles O13: an act ends with the arbiter's selection, after which nothing more can be selected. -/
theorem stepServesTransmitLink : Obligations.StepServesTransmitLink := by
  intro s t hs h
  refine step_induct (P := fun t => t.live → t.linkServed) h (fun _ => ?_)
    (fun i rest _ hx => exec_linkServed (by exact hs) hx)
  obtain hi | ⟨hl, hset, _, k, hn | hn⟩ := idle_cases s
  · rw [hi]; exact hs
  all_goals
    intro _
    unfold State.linkServed
    rw [hset, hn]
    exact hs hl

/-! ## Waiting fault events (R179) -/

theorem settled_judgeImage {im : List Byte} (hs : s.settled) : (judgeImage im s).settled := by
  unfold judgeImage
  split
  · exact finish_raised _ _
  · exact hs

theorem settled_startupRow {i : Instr} (hi : startupRow i = true) (hs : s.settled)
    (h : exec i s = .next t) : t.settled := by
  cases i with
  | resetAssert => cases h; exact hs
  | resetEnd => cases h; rfl
  | configReadEnd image =>
    simp only [exec, execConfigReadEnd] at h
    cases h
    split
    · exact settled_judgeImage (by exact hs)
    · exact hs
  | configReadTimeout =>
    simp only [exec, execConfigReadTimeout] at h
    cases h
    split <;> exact hs
  | _ => cases hi

/-- Every command ends with the waiting events handled. -/
theorem exec_settled {i : Instr} (hs : s.settled) (h : exec i s = .next t) : t.settled := by
  cases hi : startupRow i with
  | true => exact settled_startupRow hi hs h
  | false =>
    obtain ⟨mem, _, ⟨p, rfl, _⟩ | ⟨_, m, rfl⟩⟩ := exec_acts hi h
    · exact hs
    · exact finish_raised _ _

theorem step_settled (hs : s.settled) (h : step s = .next t) : t.settled := by
  refine step_induct h (fun _ => ?_) (fun i rest _ hx => exec_settled (by exact hs) hx)
  obtain hi | ⟨_, _, _, k, hn | hn⟩ := idle_cases s
  · rw [hi]; exact hs
  all_goals unfold State.settled; rw [hn]; exact hs

end Sys2Proof.Machine
end

section
/-! SUPPORT. What the transmit side keeps through every offer and every fault event: its queues within their
sizes (R12, R14, R20), and a counter for each code (R180). -/

namespace Sys2Proof.Machine

set_option Elab.async false

/-! ## The Ring Port -/

/-- The Ring Port's queues lie within their sizes (R12, R14, R20). -/
def RingPort.sized (p : RingPort) : Prop :=
  p.passBuffer.length ≤ 6 ∧ p.insertQueue.length ≤ 16 ∧ p.outstanding.length ≤ 8

variable {p : RingPort} {m : RingState}

/-- An own frame is sent from a Ring Port whose outstanding list has room where the frame is tracked. -/
theorem sized_sendOwn (b : Byte) (o : OwnFrame) {tracked : Bool} (h : p.sized)
    (room : tracked = true → p.outstanding.length < 8) : (p.sendOwn b o tracked).sized := by
  obtain ⟨hp, hi, ho⟩ := h
  refine ⟨hp, hi, ?_⟩
  unfold RingPort.sendOwn
  cases tracked with
  | false => exact ho
  | true => simpa using room rfl

theorem sized_sendPass {f : Frame} {rest : List Frame} (h : p.sized) (hb : p.passBuffer = f :: rest) :
    (p.sendPass m f rest).sized := by
  obtain ⟨hp, hi, ho⟩ := h
  refine ⟨?_, hi, ho⟩
  rw [hb] at hp
  simp only [List.length_cons] at hp
  exact Nat.le_of_succ_le hp

/-- A queue that is eligible in a tracking state leaves room in the outstanding list (R17, R20). -/
theorem eligible_room (he : p.eligible m = true) (ht : m.tracks = true) : p.outstanding.length < 8 := by
  unfold RingPort.eligible at he
  cases m <;> simp_all [RingState.tracks]

/-- The head of an eligible insert queue is sent. -/
theorem sized_sendHead (b : Byte) {o : OwnFrame} {more : List OwnFrame} (h : p.sized)
    (he : p.eligible m = true) (hq : p.insertQueue = o :: more) :
    (({ p with insertQueue := more } : RingPort).sendOwn b o m.tracks).sized := by
  obtain ⟨hp, hi, ho⟩ := h
  rw [hq] at hi
  exact sized_sendOwn b o ⟨hp, Nat.le_of_succ_le hi, ho⟩ (fun ht => (eligible_room he ht : p.outstanding.length < 8))

theorem sized_selectQueued (b : Byte) (h : p.sized) : (p.selectQueued b m).sized := by
  unfold RingPort.selectQueued
  split
  next f rest hb =>
    split
    · exact sized_sendPass h hb
    next hn =>
      have he : p.eligible m = true := by
        simp only [Bool.or_eq_true, Bool.not_eq_true'] at hn
        exact Bool.of_not_eq_false fun k => hn (.inr k)
      split
      next hq => exact sized_sendHead b h he hq
      next => exact sized_sendPass h hb
  next =>
    split
    next he =>
      split
      next hq => exact sized_sendHead b h he hq
      next => exact h
    next => exact h

theorem sized_pump (b : Byte) (h : p.sized) : (p.pump b m).sized := by
  unfold RingPort.pump RingPort.select
  split
  · exact h
  · split
    · split
      · refine sized_sendOwn b _ h (fun ht => ?_)
        simp only [Bool.and_eq_true, decide_eq_true_eq] at ht
        exact ht.2
      · exact sized_selectQueued b h
    · exact sized_selectQueued b h

/-- An offer placed in the insert queue keeps it within its size (R14). -/
theorem sized_place (o : OwnFrame) (h : p.sized) : (p.place m o).1.sized := by
  obtain ⟨hp, hi, ho⟩ := h
  unfold RingPort.place
  split
  · exact ⟨hp, hi, ho⟩
  · split
    next hroom => refine ⟨hp, ?_, ho⟩; split <;> simpa using hroom
    next =>
      split
      · exact ⟨hp, hi, ho⟩
      · split
        · exact ⟨hp, hi, ho⟩
        · split
          · exact ⟨hp, hi, ho⟩
          next t ht _ =>
            refine ⟨hp, ?_, ho⟩
            have : p.insertQueue ≠ [] := by rintro e; rw [e] at ht; cases ht
            have := List.length_pos_of_ne_nil this
            simp only [List.length_cons, List.length_dropLast]
            omega

theorem sized_flush (h : p.sized) : p.flush.sized := ⟨h.1, Nat.zero_le _, h.2.2⟩

/-! ## The Ring Port and the Fault Unit together -/

/-- From one transmit side to another: the queues stay within their sizes, and the counters stay 32. -/
structure RepKept (r q : Rep) : Prop where
  sized : r.ring.sized → q.ring.sized := by exact id
  counters : r.flt.counters.length = 32 → q.flt.counters.length = 32 := by exact id

variable {r q u : Rep} (x : Ctx)

theorem RepKept.refl (r : Rep) : RepKept r r := {}

theorem RepKept.trans (h : RepKept r q) (k : RepKept q u) : RepKept r u :=
  ⟨k.sized ∘ h.sized, k.counters ∘ h.counters⟩

theorem repKept_offer (o : OwnFrame) (r : Rep) : RepKept r (r.offer x o) := by
  unfold Rep.offer
  have hplace := sized_place (p := r.ring) (m := x.ring) o
  split
  next hp => rw [hp] at hplace; exact { sized := fun h => sized_pump _ (hplace h) }
  next hp => rw [hp] at hplace; exact { sized := fun h => sized_pump _ (hplace h) }
  next => exact {}
  next => exact {}

theorem length_bumpAt (cs : List Nat) (k : Nat) : (bumpAt cs k).length = cs.length := by
  induction cs generalizing k with
  | nil => rfl
  | cons c cs ih =>
    cases k with
    | zero => rfl
    | succ k => simp [bumpAt, ih]

theorem repKept_report (ev : FaultEvent) (r : Rep) : RepKept r (r.report x ev) := by
  unfold Rep.report
  split
  · exact .refl r
  · split
    · exact RepKept.trans {} (repKept_offer x _ _)
    · exact {}

theorem repKept_handle (ev : FaultEvent) (r : Rep) : RepKept r (r.handle x ev) :=
  RepKept.trans { counters := fun h => (length_bumpAt _ _).trans h } (repKept_report x ev _)

/-- What each of several events keeps, all of them keep. -/
theorem repKept_foldl {f : Rep → FaultEvent → Rep} (h : ∀ r ev, RepKept r (f r ev)) (evs : List FaultEvent) :
    ∀ r, RepKept r (evs.foldl f r) := by
  induction evs with
  | nil => exact RepKept.refl
  | cons ev evs ih => exact fun r => (h r ev).trans (ih _)

theorem repKept_handleWhole (r : Rep) (ev : FaultEvent) : RepKept r (r.handleWhole x ev) := by
  have first : RepKept r (Rep.handle x ev r.clearRaised) := RepKept.trans {} (repKept_handle x ev _)
  exact first.trans (RepKept.trans {} (repKept_foldl (fun q k => repKept_handle x k q) _ _))

theorem repKept_settle (r : Rep) : RepKept r (r.settle x) := by
  have all := repKept_foldl (fun q ev => repKept_handleWhole x q ev) r.flt.raised r.clearRaised
  exact RepKept.trans {} (all.trans {})

end Sys2Proof.Machine
end

section
/-! SUPPORT. The schedule slots (R123): their counts by state and id, the ACTIVE schedule and the records they
hold, through each change that the model makes of them. -/

namespace Sys2Proof.Machine

set_option Elab.async false

variable {v : Four Slot} {p q : Slot → Bool} {f : Slot → Slot}

/-! ## Counting slots -/

theorem slotCount_mapFour : slotCount p (mapFour f v) = slotCount (fun x => p (f x)) v := by
  simp only [slotCount, mapFour, listFour, List.countP_cons, List.countP_nil]

theorem slotCount_le (h : ∀ x, p x = true → q x = true) : slotCount p v ≤ slotCount q v :=
  List.countP_mono_left (fun x _ => h x)

theorem slotCount_le_map (h : ∀ x, p (f x) = true → p x = true) : slotCount p (mapFour f v) ≤ slotCount p v :=
  slotCount_mapFour.trans_le (slotCount_le h)

theorem slotCount_eq_map (h : ∀ x, p (f x) = p x) : slotCount p (mapFour f v) = slotCount p v := by
  rw [slotCount_mapFour, funext h]

theorem slotCount_none (h : ∀ x, p (f x) = false) : slotCount p (mapFour f v) = 0 := by
  rw [slotCount_mapFour, funext h]
  simp [slotCount]

/-- Replacing a slot takes its old value out of the count and puts its new one in. -/
theorem slotCount_setFour (k : Fin 4) (x : Slot) :
    slotCount p (setFour v k x) + (p (getFour v k)).toNat = slotCount p v + (p x).toNat := by
  fin_cases k <;>
    simp only [slotCount, listFour, setFour, getFour, List.countP_cons, List.countP_nil] <;>
    cases p x <;> cases p v.x0 <;> cases p v.x1 <;> cases p v.x2 <;> cases p v.x3 <;> rfl

theorem slotCount_setFour_eq {k : Fin 4} {x : Slot} (h : p (getFour v k) = p x) :
    slotCount p (setFour v k x) = slotCount p v := by
  have := slotCount_setFour (p := p) (v := v) k x
  rw [h] at this
  omega

/-! ## The ACTIVE schedule -/

/-- The schedule and id of an ACTIVE slot. -/
def Slot.asActive : Slot → Option (Nat × Schedule)
  | .active id r => some (id, r)
  | _ => none

theorem active_eq (s : SchedStore) : s.active = (listFour s.slots).findSome? Slot.asActive := rfl

/-- A change that leaves every slot ACTIVE or not as it stood leaves the ACTIVE schedule. -/
theorem active_mapFour (h : ∀ x, (f x).asActive = x.asActive) (s : SchedStore) :
    ({ s with slots := mapFour f s.slots } : SchedStore).active = s.active := by
  simp only [active_eq, listFour, mapFour, List.findSome?_cons, List.findSome?_nil, h]

theorem active_setFour {s : SchedStore} {k : Fin 4} {x : Slot} (h : x.asActive = (getFour s.slots k).asActive) :
    ({ s with slots := setFour s.slots k x } : SchedStore).active = s.active := by
  simp only [active_eq, listFour, List.findSome?_cons, List.findSome?_nil]
  fin_cases k <;> simp only [setFour, getFour] at h ⊢ <;> rw [h]

theorem mem_listFour {α : Type} {w : Four α} {x : α} : x ∈ listFour w ↔ ∃ k, getFour w k = x := by
  simp only [listFour_eq_places, Fin.exists_fin_succ, List.mem_cons, List.not_mem_nil, eq_comm,
    or_false, IsEmpty.exists_iff]
  rfl

/-- The ACTIVE schedule is the record of a slot. -/
theorem exists_slot_of_active {s : SchedStore} {id : Nat} {r : Schedule} (h : s.active = some (id, r)) :
    ∃ x ∈ listFour s.slots, x.record = some r := by
  rw [active_eq] at h
  obtain ⟨x, hx, ha⟩ := List.exists_of_findSome?_eq_some h
  cases x with
  | active id' r' => cases ha; exact ⟨_, hx, rfl⟩
  | _ => cases ha

/-- A slot that is ACTIVE makes a schedule ACTIVE. -/
theorem active_isSome_of_slot {s : SchedStore} {x : Slot} (hx : x ∈ listFour s.slots)
    (ha : x.asActive.isSome = true) : s.active.isSome = true := by
  rw [active_eq, List.findSome?_isSome_iff]
  exact ⟨x, hx, ha⟩

/-! ## What each change of a slot leaves -/

theorem Slot.isActive_eq (x : Slot) : x.isActive = x.asActive.isSome := by cases x <;> rfl

section Disarm
variable (x : Slot)
@[simp] theorem disarm_asActive : x.disarm.asActive = x.asActive := by cases x <;> rfl
@[simp] theorem disarm_isPending : x.disarm.isPending = false := by cases x <;> rfl
@[simp] theorem disarm_id : x.disarm.id = x.id := by cases x <;> rfl
@[simp] theorem disarm_record : x.disarm.record = x.record := by cases x <;> rfl
@[simp] theorem tickSlot_asActive : (tickSlot x).asActive = x.asActive := by cases x <;> rfl
@[simp] theorem tickSlot_isPending : (tickSlot x).isPending = x.isPending := by cases x <;> rfl
@[simp] theorem tickSlot_id : (tickSlot x).id = x.id := by cases x <;> rfl
@[simp] theorem tickSlot_record : (tickSlot x).record = x.record := by cases x <;> rfl
@[simp] theorem dropLoading_asActive : x.dropLoading.asActive = x.asActive := by cases x <;> rfl
@[simp] theorem dropLoading_isPending : x.dropLoading.isPending = x.isPending := by cases x <;> rfl
@[simp] theorem dropLoading_record : x.dropLoading.record = x.record := by cases x <;> rfl
theorem id_of_dropLoading {i : Nat} (h : x.dropLoading.id = some i) : x.id = some i := by
  cases x with
  | loading => cases h
  | _ => exact h

/-- In a flying change the PENDING slot becomes ACTIVE, and none is PENDING any more (R133). -/
@[simp] theorem fly_isActive : x.fly.isActive = x.isPending := by cases x <;> rfl
@[simp] theorem fly_isPending : x.fly.isPending = false := by cases x <;> rfl
@[simp] theorem fly_id : x.fly.id = x.id := by cases x <;> rfl
@[simp] theorem fly_record : x.fly.record = x.record := by cases x <;> rfl

variable (k : Nat)

theorem free_asActive : (x.free k).asActive = x.asActive := by
  cases x with
  | loaded => simp only [Slot.free]; split <;> rfl
  | _ => rfl
theorem free_isPending : (x.free k).isPending = x.isPending := by
  cases x with
  | loaded => simp only [Slot.free]; split <;> rfl
  | _ => rfl
theorem id_of_free {i : Nat} (h : (x.free k).id = some i) : x.id = some i := by
  cases x with
  | loaded j r =>
    simp only [Slot.free] at h
    split at h
    · cases h
    · exact h
  | _ => exact h
theorem record_of_free {r : Schedule} (h : (x.free k).record = some r) : x.record = some r := by
  cases x with
  | loaded j r =>
    simp only [Slot.free] at h
    split at h
    · cases h
    · exact h
  | _ => exact h

/-- After an activation the slot that held the id LOADED is ACTIVE, and no other (R129). -/
theorem activate_isActive : (x.activate k).isActive = x.loadedAs k := by
  cases x with
  | loaded => simp only [Slot.activate, Slot.loadedAs]; split <;> simp_all [Slot.isActive]
  | _ => rfl
theorem activate_isPending : (x.activate k).isPending = x.isPending := by
  cases x with
  | loaded => simp only [Slot.activate]; split <;> rfl
  | _ => rfl
theorem activate_id : (x.activate k).id = x.id := by
  cases x with
  | loaded => simp only [Slot.activate]; split <;> rfl
  | _ => rfl
theorem activate_record : (x.activate k).record = x.record := by
  cases x with
  | loaded => simp only [Slot.activate]; split <;> rfl
  | _ => rfl

/-- After an arming the slot that held the id LOADED is PENDING, and no other (R130). -/
theorem arm_isPending : (x.arm k).isPending = x.loadedAs k := by
  cases x with
  | loaded => simp only [Slot.arm, Slot.loadedAs]; split <;> simp_all [Slot.isPending]
  | _ => rfl
theorem arm_asActive : (x.arm k).asActive = x.asActive := by
  cases x with
  | loaded => simp only [Slot.arm]; split <;> rfl
  | _ => rfl
theorem arm_id : (x.arm k).id = x.id := by
  cases x with
  | loaded => simp only [Slot.arm]; split <;> rfl
  | _ => rfl
theorem arm_record : (x.arm k).record = x.record := by
  cases x with
  | loaded => simp only [Slot.arm]; split <;> rfl
  | _ => rfl

theorem id_of_loadedAs {x : Slot} {k : Nat} (h : x.loadedAs k = true) : x.id = some k := by
  obtain ⟨r, rfl⟩ := Slot.loadedAs_iff.mp h
  rfl
end Disarm

/-! ## The law of the slots -/

/-- The slots' part of the law of R123: at most one ACTIVE, at most one PENDING, each id once. -/
def SlotsOnce (v : Four Slot) : Prop :=
  slotCount Slot.isActive v ≤ 1 ∧ slotCount Slot.isPending v ≤ 1 ∧
    ∀ id, slotCount (fun x => x.id = some id) v ≤ 1

/-- The slots hold validated schedules only (R123). -/
def SlotsValid (v : Four Slot) : Prop := ∀ x ∈ listFour v, ∀ r, x.record = some r → r.valid = true

theorem slotsValid_mapFour (h : ∀ x r, (f x).record = some r → x.record = some r) (hv : SlotsValid v) :
    SlotsValid (mapFour f v) := by
  intro x hx r hr
  obtain ⟨k, hk⟩ := mem_listFour.mp hx
  rw [getFour_mapFour] at hk
  subst hk
  exact hv _ (mem_listFour.mpr ⟨k, rfl⟩) _ (h _ _ hr)

theorem slotsValid_setFour {k : Fin 4} {x : Slot} (hx : ∀ r, x.record = some r → r.valid = true)
    (hv : SlotsValid v) : SlotsValid (setFour v k x) := by
  intro y hy r hr
  obtain ⟨j, hj⟩ := mem_listFour.mp hy
  rw [getFour_setFour] at hj
  split at hj
  · subst hj; exact hx r hr
  · exact hv y (mem_listFour.mpr ⟨j, hj⟩) r hr

/-- A change that keeps ids or drops them, and makes no slot ACTIVE or PENDING. -/
theorem slotsOnce_mapFour (ha : ∀ x, (f x).isActive = true → x.isActive = true)
    (hp : ∀ x, (f x).isPending = true → x.isPending = true)
    (hi : ∀ x i, (f x).id = some i → x.id = some i) (h : SlotsOnce v) : SlotsOnce (mapFour f v) := by
  obtain ⟨hactive, hpending, honce⟩ := h
  exact ⟨(slotCount_le_map ha).trans hactive, (slotCount_le_map hp).trans hpending,
    fun i => (slotCount_le_map (by simpa using fun x => hi x i)).trans (honce i)⟩

/-- By the law, at most one slot holds an id LOADED. -/
theorem slotCount_loadedAs (h : SlotsOnce v) (k : Nat) : slotCount (fun x => x.loadedAs k) v ≤ 1 := by
  obtain ⟨_, _, honce⟩ := h
  exact (slotCount_le (fun x hx => by simpa using id_of_loadedAs hx)).trans (honce k)

theorem slotsOnce_activate (k : Nat) (h : SlotsOnce v) : SlotsOnce (mapFour (Slot.activate k) v) := by
  obtain ⟨hactive, hpending, honce⟩ := h
  refine ⟨?_, ?_, fun i => ?_⟩
  · rw [slotCount_mapFour, funext (activate_isActive · k)]
    exact slotCount_loadedAs ⟨hactive, hpending, honce⟩ k
  · rw [slotCount_eq_map (activate_isPending · k)]; exact hpending
  · rw [slotCount_eq_map (fun x => by rw [activate_id])]; exact honce i

theorem slotsOnce_arm (k : Nat) (h : SlotsOnce v) : SlotsOnce (mapFour (Slot.arm k) v) := by
  obtain ⟨hactive, hpending, honce⟩ := h
  refine ⟨?_, ?_, fun i => ?_⟩
  · rw [slotCount_eq_map (fun x => by rw [Slot.isActive_eq, Slot.isActive_eq, arm_asActive])]; exact hactive
  · rw [slotCount_mapFour, funext (arm_isPending · k)]
    exact slotCount_loadedAs ⟨hactive, hpending, honce⟩ k
  · rw [slotCount_eq_map (fun x => by rw [arm_id])]; exact honce i

theorem slotsOnce_fly (h : SlotsOnce v) : SlotsOnce (mapFour Slot.fly v) := by
  obtain ⟨hactive, hpending, honce⟩ := h
  refine ⟨?_, ?_, fun i => ?_⟩
  · rw [slotCount_mapFour, funext fly_isActive]; exact hpending
  · rw [slotCount_none fly_isPending]; exact Nat.zero_le _
  · rw [slotCount_eq_map (fun x => by rw [fly_id])]; exact honce i

/-- A slot that is neither ACTIVE nor PENDING takes another such value, whose id no other slot holds. -/
theorem slotsOnce_setFour {k : Fin 4} {x : Slot} (hold : (getFour v k).asActive = none)
    (hpend : (getFour v k).isPending = false) (hxa : x.asActive = none) (hxp : x.isPending = false)
    (hid : ∀ i, x.id = some i → (getFour v k).id = some i ∨ slotCount (fun y => y.id = some i) v = 0)
    (h : SlotsOnce v) : SlotsOnce (setFour v k x) := by
  obtain ⟨hactive, hpending, honce⟩ := h
  refine ⟨?_, ?_, fun i => ?_⟩
  · rw [slotCount_setFour_eq (by rw [Slot.isActive_eq, Slot.isActive_eq, hold, hxa])]; exact hactive
  · rw [slotCount_setFour_eq (by rw [hpend, hxp])]; exact hpending
  · have hcount := slotCount_setFour (p := fun y => y.id = some i) (v := v) k x
    have hle := honce i
    by_cases hx : x.id = some i
    · obtain hk | hk := hid i hx
      · rw [slotCount_setFour_eq (by simp [hk, hx])]; exact hle
      · simp only [hk, hx, decide_true, Bool.toNat_true] at hcount
        omega
    · simp only [hx, decide_false, Bool.toNat_false] at hcount
      omega

/-- The slot that a search finds. -/
theorem findSlot_some {k : Fin 4} (h : findSlot p v = some k) : p (getFour v k) = true := by
  unfold findSlot at h
  split at h
  next h0 => cases h; exact h0
  next =>
    split at h
    next h1 => cases h; exact h1
    next =>
      split at h
      next h2 => cases h; exact h2
      next =>
        split at h
        next h3 => cases h; exact h3
        next => cases h

theorem loads_iff {x : Slot} {i : Nat} {b : Byte} :
    x.loads i b = true ↔ ∃ l, x = .loading l ∧ l.id = i ∧ l.source = b := by
  cases x <;> simp [Slot.loads]

theorem isEmpty_iff {x : Slot} : x.isEmpty = true ↔ x = .empty := by cases x <;> simp [Slot.isEmpty]

/-- What a search for a load finds is in its slot, LOADING the id from the source. -/
theorem loadAt_some {i : Nat} {b : Byte} {k : Fin 4} {l : Loading} (h : loadAt v i b = some (k, l)) :
    getFour v k = .loading l ∧ l.id = i ∧ l.source = b := by
  unfold loadAt at h
  split at h
  next => cases h
  next j hj =>
    obtain ⟨l', hl, hid, hsource⟩ := loads_iff.mp (findSlot_some hj)
    rw [hl] at h
    cases h
    exact ⟨hl, hid, hsource⟩

/-- Where no slot holds an id its count is 0. -/
theorem slotCount_id_zero {s : SchedStore} {i : Nat} (h : s.holdsId i = false) :
    slotCount (fun y => y.id = some i) s.slots = 0 := by
  unfold SchedStore.holdsId at h
  simp only [slotCount, List.countP_eq_zero]
  intro x hx
  have := List.any_eq_false.mp h x hx
  simpa using this

end Sys2Proof.Machine
end

section
/-! SUPPORT. The coefficient cache and the parameter request queue (R149 to R153): the law of the fills, through
each change that the model makes of them. -/

namespace Sys2Proof.Machine

set_option Elab.async false

variable {g h : GapControl} {t u : CoefTag} {live : Prop}

/-! ## What is cached -/

theorem find_eq_none_iff {s : CacheSet} :
    s.find t = none ↔ wayHolds s.way0 t = false ∧ wayHolds s.way1 t = false := by
  obtain ⟨w0, w1, mru⟩ := s
  cases w0 with
  | none =>
    cases w1 with
    | none => simp [CacheSet.find, wayHolds]
    | some q => by_cases hq : q.tag = t <;> simp [CacheSet.find, wayHolds, hq]
  | some r =>
    by_cases hr : r.tag = t
    · simp [CacheSet.find, wayHolds, hr]
    · cases w1 with
      | none => simp [CacheSet.find, wayHolds, hr]
      | some q => by_cases hq : q.tag = t <;> simp [CacheSet.find, wayHolds, hr, hq]

theorem cached_eq_none_iff : g.cached t = none ↔
    wayHolds (g.setOf t).way0 t = false ∧ wayHolds (g.setOf t).way1 t = false := by
  rw [GapControl.cached, Option.map_eq_none_iff, find_eq_none_iff]

theorem cached_congr (hc : h.cache = g.cache) : h.cached t = g.cached t := by
  unfold GapControl.cached GapControl.setOf
  rw [hc]

/-- A set replaced is the one that its own tags read; every other tag reads its set as before. -/
theorem setOf_putSet (s : CacheSet) :
    (g.putSet t s).setOf u = s ∧ u.setIndex = t.setIndex ∨ (g.putSet t s).setOf u = g.setOf u := by
  unfold GapControl.putSet GapControl.setOf
  simp only [List.getD_eq_getElem?_getD]
  by_cases hi : t.setIndex = u.setIndex
  · rw [hi]
    by_cases hl : u.setIndex < g.cache.length
    · exact .inl ⟨by simp [hl], rfl⟩
    · rw [List.set_eq_of_length_le (by omega)]
      exact .inr rfl
  · exact .inr (by rw [List.getElem?_set_ne hi])

theorem setOf_eq_of_index (hi : u.setIndex = t.setIndex) : g.setOf u = g.setOf t := by
  unfold GapControl.setOf
  rw [hi]

/-- A set that holds a tag in no way that its predecessor did not leaves the tag out of the cache. -/
theorem cached_putSet_none {s : CacheSet} (hc : g.cached u = none)
    (hs : u.setIndex = t.setIndex → wayHolds (g.setOf t).way0 u = false → wayHolds (g.setOf t).way1 u = false →
      wayHolds s.way0 u = false ∧ wayHolds s.way1 u = false) : (g.putSet t s).cached u = none := by
  rw [cached_eq_none_iff] at hc ⊢
  obtain ⟨h0, h1⟩ := hc
  obtain ⟨he, hi⟩ | he := setOf_putSet (g := g) (t := t) (u := u) s
  · rw [he]
    rw [setOf_eq_of_index hi] at h0 h1
    exact hs hi h0 h1
  · rw [he]
    exact ⟨h0, h1⟩

theorem wayHolds_some {r : CoefRecord} : wayHolds (some r) u = false ↔ r.tag ≠ u := by simp [wayHolds]

/-! ## The law of the fills (R150) -/

/-- No set of a cache holds two valid ways with one tag. -/
def WaysDiffer (cache : List CacheSet) : Prop :=
  ∀ x ∈ cache, ∀ a b, x.way0 = some a → x.way1 = some b → a.tag ≠ b.tag

/-- The Gap Controller's law of R150: the cache and the queue, and outside a reset a wanted fill. -/
def GapControl.fillLaw (live : Prop) (g : GapControl) : Prop :=
  WaysDiffer g.cache ∧ (fillTags g.queue).Nodup ∧ (∀ t ∈ fillTags g.queue, g.cached t = none) ∧
    (live → ∀ w, g.waiting = some w → w.wanted = true →
      4 ≤ g.queue.length ∧ w.tag ∉ fillTags g.queue ∧ g.cached w.tag = none)

theorem cacheLaw_iff (s : State) : s.cacheLaw ↔ s.node.gap.fillLaw s.live := Iff.rfl

/-- A change that leaves the cache and the queue, and makes no fill wanted. -/
theorem fillLaw_congr (hc : h.cache = g.cache) (hq : h.queue = g.queue)
    (hw : ∀ w, h.waiting = some w → w.wanted = true → g.waiting = some w) (hg : g.fillLaw live) :
    h.fillLaw live := by
  obtain ⟨hways, hnodup, hcached, hwanted⟩ := hg
  refine ⟨hc ▸ hways, hq ▸ hnodup, ?_, fun hl w hs hk => ?_⟩
  · rw [hq]; exact fun t ht => (cached_congr hc).trans (hcached t ht)
  · rw [hq, cached_congr hc]; exact hwanted hl w (hw w hs hk) hk

theorem waysDiffer_set {cache : List CacheSet} {i : Nat} {s : CacheSet} (hc : WaysDiffer cache)
    (hs : ∀ a b, s.way0 = some a → s.way1 = some b → a.tag ≠ b.tag) : WaysDiffer (cache.set i s) := by
  intro x hx
  obtain hx | rfl := List.mem_or_eq_of_mem_set hx
  · exact hc x hx
  · exact hs

theorem waysDiffer_setOf (hc : WaysDiffer g.cache) (a b : CoefRecord) (ha : (g.setOf t).way0 = some a)
    (hb : (g.setOf t).way1 = some b) : a.tag ≠ b.tag := by
  unfold GapControl.setOf at ha hb
  rw [List.getD_eq_getElem?_getD] at ha hb
  cases hx : g.cache[t.setIndex]? with
  | none => rw [hx] at ha; cases ha
  | some x =>
    rw [hx] at ha hb
    exact hc x (List.mem_of_getElem? hx) a b ha hb

/-- A lookup moves the MRU mark at most (R149). -/
theorem fillLaw_lookup (t : CoefTag) (hg : g.fillLaw live) : (g.lookup t).1.fillLaw live := by
  unfold GapControl.lookup
  split
  next w r hfind =>
    obtain ⟨hways, hnodup, hcached, hwanted⟩ := hg
    have keeps : ∀ u, g.cached u = none →
        (g.putSet t { g.setOf t with mru1 := w }).cached u = none :=
      fun u hu => cached_putSet_none hu (fun _ h0 h1 => ⟨h0, h1⟩)
    refine ⟨waysDiffer_set hways (waysDiffer_setOf hways), hnodup, fun u hu => keeps u (hcached u hu), ?_⟩
    intro hl x hx hk
    obtain ⟨hfull, hfill, hnone⟩ := hwanted hl x hx hk
    exact ⟨hfull, hfill, keeps _ hnone⟩
  next => exact fillLaw_congr rfl rfl (fun _ hw _ => hw) hg

theorem lookup_queue (t : CoefTag) : (g.lookup t).1.queue = g.queue := by
  unfold GapControl.lookup; split <;> rfl
theorem lookup_reference (t : CoefTag) : (g.lookup t).1.reference = g.reference := by
  unfold GapControl.lookup; split <;> rfl
theorem lookup_base (t : CoefTag) : (g.lookup t).1.base = g.base := by
  unfold GapControl.lookup; split <;> rfl
theorem lookup_waiting (t : CoefTag) : (g.lookup t).1.waiting = g.waiting := by
  unfold GapControl.lookup; split <;> rfl

/-- A tag that a lookup misses is not in the cache, before it and after it. -/
theorem cached_of_lookup_none (hm : (g.lookup t).2 = none) :
    g.cached t = none ∧ (g.lookup t).1.cache = g.cache := by
  unfold GapControl.lookup at hm ⊢
  split
  next hf => rw [hf] at hm; cases hm
  next hf => exact ⟨by simp [GapControl.cached, hf], rfl⟩

/-! ## The queue -/

theorem fillTags_append (a b : List ParamOp) : fillTags (a ++ b) = fillTags a ++ fillTags b :=
  List.filterMap_append

@[simp] theorem fillTags_nil : fillTags [] = [] := rfl

@[simp] theorem fillTags_fill (t : CoefTag) (q : List ParamOp) : fillTags (.fill t :: q) = t :: fillTags q := rfl

@[simp] theorem fillTags_write (r : CoefRecord) (e : Bool) (q : List ParamOp) :
    fillTags (.write r e :: q) = fillTags q := rfl

theorem filling_iff : g.filling t = true ↔ t ∈ fillTags g.queue := by
  simp only [GapControl.filling, List.contains_iff_mem, fillTags, List.mem_filterMap]
  constructor
  · exact fun hm => ⟨_, hm, rfl⟩
  · rintro ⟨o, ho, he⟩
    cases o with
    | fill t' => cases he; exact ho
    | write r e => cases he

theorem room_iff : g.room = true ↔ g.queue.length < 4 := by simp [GapControl.room]

/-- A queue with room has no wanted fill beside it. -/
theorem not_wanted_of_room (hg : g.fillLaw live) (hl : live) (hr : g.queue.length < 4) (w : Waiting)
    (hw : g.waiting = some w) : w.wanted = false := by
  obtain ⟨_, _, _, hwanted⟩ := hg
  cases hk : w.wanted with
  | false => rfl
  | true => have := (hwanted hl w hw hk).1; omega

/-- A fill of a tag that is neither cached nor filling joins a queue with room. -/
theorem fillLaw_enqueue_fill (hc : g.cached t = none) (hf : ¬ g.filling t = true) (hr : g.queue.length < 4)
    (hg : g.fillLaw live) : (g.enqueue (.fill t)).fillLaw live := by
  have hfree := fun hl => not_wanted_of_room hg hl hr
  obtain ⟨hways, hnodup, hcached, _⟩ := hg
  rw [filling_iff] at hf
  refine ⟨hways, ?_, ?_, fun hl w hw hk => ?_⟩
  · simp only [GapControl.enqueue, fillTags_append]
    exact List.nodup_append'.mpr ⟨hnodup, List.nodup_singleton t, by simpa using hf⟩
  · simp only [GapControl.enqueue, fillTags_append, List.mem_append]
    rintro u (hu | hu)
    · exact hcached u hu
    · obtain rfl : u = t := by simpa using hu
      exact hc
  · rw [hfree hl w hw] at hk; cases hk

theorem fillLaw_enqueue_write (r : CoefRecord) (e : Bool) (hr : g.queue.length < 4) (hg : g.fillLaw live) :
    (g.enqueue (.write r e)).fillLaw live := by
  have hfree := fun hl => not_wanted_of_room hg hl hr
  obtain ⟨hways, hnodup, hcached, _⟩ := hg
  have htags : fillTags (g.enqueue (.write r e)).queue = fillTags g.queue := by
    simp only [GapControl.enqueue, fillTags_append]
    exact List.append_nil _
  refine ⟨hways, htags ▸ hnodup, htags ▸ hcached, fun hl w hw hk => ?_⟩
  rw [hfree hl w hw] at hk; cases hk

theorem fillLaw_fillIfRoom (hc : g.cached t = none) (hg : g.fillLaw live) : (g.fillIfRoom t).fillLaw live := by
  unfold GapControl.fillIfRoom
  split
  · exact hg
  next hn =>
    simp only [Bool.or_eq_true, Bool.not_eq_true', not_or, Bool.not_eq_false] at hn
    exact fillLaw_enqueue_fill hc hn.1 (room_iff.mp hn.2) hg

theorem fillLaw_prefetchTag (t : CoefTag) (hg : g.fillLaw live) : (g.prefetchTag t).fillLaw live := by
  unfold GapControl.prefetchTag
  split
  · exact hg
  next hn =>
    simp only [Bool.or_eq_true, not_or, Bool.not_eq_true, Option.isSome_eq_false_iff, Option.isNone_iff_eq_none]
      at hn
    split
    next hr => exact fillLaw_enqueue_fill hn.1 (by simp [hn.2]) (room_iff.mp hr) hg
    next => exact fillLaw_congr rfl rfl (fun _ hw _ => hw) hg

/-- The queue with one more operation, where it had room, lies within its size. -/
theorem length_enqueue (op : ParamOp) (hr : g.queue.length < 4) : (g.enqueue op).queue.length ≤ 4 := by
  simp only [GapControl.enqueue, List.length_append, List.length_cons, List.length_nil]
  omega

theorem length_fillIfRoom (t : CoefTag) (hq : g.queue.length ≤ 4) : (g.fillIfRoom t).queue.length ≤ 4 := by
  unfold GapControl.fillIfRoom
  split
  · exact hq
  next hn =>
    simp only [Bool.or_eq_true, Bool.not_eq_true', not_or, Bool.not_eq_false] at hn
    exact length_enqueue _ (room_iff.mp hn.2)

theorem length_prefetchTag (t : CoefTag) (hq : g.queue.length ≤ 4) : (g.prefetchTag t).queue.length ≤ 4 := by
  unfold GapControl.prefetchTag
  split
  · exact hq
  · split
    next hr => exact length_enqueue _ (room_iff.mp hr)
    next => exact hq

theorem fillIfRoom_kept (t : CoefTag) : (g.fillIfRoom t).reference = g.reference ∧
    (g.fillIfRoom t).base = g.base ∧ (g.fillIfRoom t).waiting = g.waiting := by
  unfold GapControl.fillIfRoom
  split <;> exact ⟨rfl, rfl, rfl⟩

theorem prefetchTag_kept (t : CoefTag) :
    (g.prefetchTag t).reference = g.reference ∧ (g.prefetchTag t).base = g.base := by
  unfold GapControl.prefetchTag
  split
  · exact ⟨rfl, rfl⟩
  · split <;> exact ⟨rfl, rfl⟩

/-- A prefetch keeps the law, the size of the queue, the reference and the base (R152). -/
theorem prefetch_keeps (pclass band : Nat) :
    (g.fillLaw live → (g.prefetch pclass band).fillLaw live) ∧
    (g.queue.length ≤ 4 → (g.prefetch pclass band).queue.length ≤ 4) ∧
    (g.prefetch pclass band).reference = g.reference ∧ (g.prefetch pclass band).base = g.base := by
  unfold GapControl.prefetch
  generalize prefetchTags pclass band = ts
  induction ts generalizing g with
  | nil => exact ⟨id, id, rfl, rfl⟩
  | cons t ts ih =>
    obtain ⟨hlaw, hlen, href, hbase⟩ := ih (g := g.prefetchTag t)
    obtain ⟨href', hbase'⟩ := prefetchTag_kept (g := g) t
    exact ⟨hlaw ∘ fillLaw_prefetchTag t, hlen ∘ length_prefetchTag t, href.trans href', hbase.trans hbase'⟩

/-! ## The end of an operation (R150 to R153) -/

/-- The operation in service leaves; a wanted fill, for which there is room by then, joins. -/
theorem fillLaw_endOperation (hways : WaysDiffer g.cache) (hnodup : (fillTags (g.queue.drop 1)).Nodup)
    (hcached : ∀ t ∈ fillTags (g.queue.drop 1), g.cached t = none)
    (hwanted : ∀ w, g.waiting = some w → w.wanted = true →
      w.tag ∉ fillTags (g.queue.drop 1) ∧ g.cached w.tag = none) : g.endOperation.fillLaw live := by
  have hcache : ∀ u, g.endOperation.cached u = g.cached u := fun u => cached_congr rfl
  have hnone : ∀ w, g.endOperation.waiting = some w → w.wanted = true → False := by
    intro w hw hk
    obtain ⟨w', _, rfl⟩ := Option.map_eq_some_iff.mp hw
    cases hk
  have rest_holds : g.endOperation.queue = g.queue.drop 1 → g.endOperation.fillLaw live := by
    intro hq
    refine ⟨hways, hq ▸ hnodup, ?_, fun _ w hw hk => (hnone w hw hk).elim⟩
    rw [hq]
    exact fun u hu => (hcache u).trans (hcached u hu)
  cases hw : g.waiting with
  | none => exact rest_holds (by simp [GapControl.endOperation, hw])
  | some w =>
    cases hk : w.wanted with
    | false => exact rest_holds (by simp [GapControl.endOperation, hw, hk])
    | true =>
      obtain ⟨hfill, hc⟩ := hwanted w hw hk
      have hq : g.endOperation.queue = g.queue.drop 1 ++ [.fill w.tag] := by
        simp [GapControl.endOperation, hw, hk]
      refine ⟨hways, ?_, ?_, fun _ w hw hk => (hnone w hw hk).elim⟩
      · rw [hq, fillTags_append]
        exact List.nodup_append'.mpr ⟨hnodup, List.nodup_singleton _, by simpa using hfill⟩
      · rw [hq, fillTags_append]
        intro u hu
        rw [hcache]
        obtain hu | hu := List.mem_append.mp hu
        · exact hcached u hu
        · obtain rfl : u = w.tag := by simpa using hu
          exact hc

theorem length_endOperation (hq : g.queue.length ≤ 4) : g.endOperation.queue.length ≤ 4 := by
  have hdrop : (g.queue.drop 1).length ≤ 3 := by simp only [List.length_drop]; omega
  unfold GapControl.endOperation
  dsimp only
  split
  · split
    · simp only [List.length_append, List.length_cons, List.length_nil]; omega
    · omega
  · omega

/-! ## Fills and writes that end -/

/-- An installed record is the only one that a fill brings into the cache. -/
theorem cached_install_none {r : CoefRecord} (hc : g.cached u = none) (hu : u ≠ r.tag) :
    (g.install r).cached u = none := by
  have key := cached_putSet_none (t := r.tag) (s := if (g.setOf r.tag).mru1
      then { way0 := some r, way1 := (g.setOf r.tag).way1, mru1 := false }
      else { way0 := (g.setOf r.tag).way0, way1 := some r, mru1 := true }) hc (by
    intro _ h0 h1
    have hr : wayHolds (some r) u = false := wayHolds_some.mpr hu.symm
    split
    · exact ⟨hr, h1⟩
    · exact ⟨h0, hr⟩)
  exact (cached_congr rfl).trans key

/-- A record whose tag was not cached is installed beside a way of another tag. -/
theorem waysDiffer_install {r : CoefRecord} (hw : WaysDiffer g.cache) (hc : g.cached r.tag = none) :
    WaysDiffer (g.install r).cache := by
  obtain ⟨h0, h1⟩ := cached_eq_none_iff.mp hc
  refine waysDiffer_set hw ?_
  split
  · rintro a b ha hb
    cases ha
    rw [hb] at h1
    exact (wayHolds_some.mp h1).symm
  · rintro a b ha hb
    cases hb
    rw [ha] at h0
    exact wayHolds_some.mp h0

/-- A fill's outcome touches the cache, the counts and the last coefficients used only. -/
theorem fillOutcome_kept (t : CoefTag) (got : Option CoefRecord) :
    (g.fillOutcome t got).queue = g.queue ∧ (g.fillOutcome t got).waiting = g.waiting ∧
    (g.fillOutcome t got).reference = g.reference ∧ (g.fillOutcome t got).base = g.base := by
  unfold GapControl.fillOutcome
  split
  · dsimp only
    split
    · split <;> exact ⟨rfl, rfl, rfl, rfl⟩
    · exact ⟨rfl, rfl, rfl, rfl⟩
  · exact ⟨rfl, rfl, rfl, rfl⟩

theorem fillOutcome_cache (t : CoefTag) (got : Option CoefRecord) :
    (g.fillOutcome t got).cache = match got with | some r => (g.install r).cache | none => g.cache := by
  unfold GapControl.fillOutcome
  split
  · dsimp only
    split
    · split <;> rfl
    · rfl
  · rfl

/-- The law through the end of the fill in service, whatever it read for its tag. -/
theorem fillLaw_fillEnds {got : Option CoefRecord} {rest : List ParamOp} (hl : live)
    (hq : g.queue = .fill t :: rest) (hgot : ∀ r, got = some r → r.tag = t) (hg : g.fillLaw live) :
    (g.fillOutcome t got).endOperation.fillLaw live := by
  obtain ⟨hways, hnodup, hcached, hwanted⟩ := hg
  obtain ⟨hqueue, hwait, _, _⟩ := fillOutcome_kept (g := g) t got
  rw [hq] at hnodup hcached hwanted
  simp only [fillTags_fill, List.nodup_cons, List.mem_cons] at hnodup hcached hwanted
  have hcache := fillOutcome_cache (g := g) t got
  have other : ∀ u, g.cached u = none → u ≠ t → (g.fillOutcome t got).cached u = none := by
    intro u hu hne
    cases got with
    | none => exact (cached_congr hcache).trans hu
    | some r => exact (cached_congr hcache).trans (cached_install_none hu (hgot r rfl ▸ hne))
  have hdiffer : WaysDiffer (g.fillOutcome t got).cache := by
    rw [hcache]
    cases got with
    | none => exact hways
    | some r => exact waysDiffer_install hways (hgot r rfl ▸ hcached t (.inl rfl))
  apply fillLaw_endOperation hdiffer <;> rw [hqueue, hq, List.drop_one, List.tail_cons]
  · exact hnodup.2
  · exact fun u hu => other u (hcached u (.inr hu)) (fun he => hnodup.1 (he ▸ hu))
  · intro w hw hk
    rw [hwait] at hw
    obtain ⟨_, hfill, hc⟩ := hwanted hl w hw hk
    rw [not_or] at hfill
    exact ⟨hfill.2, other _ hc hfill.1⟩

theorem wayHolds_update {w x : Option CoefRecord} (hw : ∀ r, w = some r → r.tag = t)
    (hx : wayHolds x u = false) : wayHolds (if wayHolds x t then w else x) u = false := by
  split
  next ht =>
    cases w with
    | none => rfl
    | some r =>
      rw [wayHolds_some, hw r rfl]
      rintro rfl
      rw [hx] at ht
      cases ht
  next => exact hx

/-- A copy of a tag replaced brings no tag into the cache. -/
theorem cached_updateCopy_none {w : Option CoefRecord} (hw : ∀ r, w = some r → r.tag = t)
    (hc : g.cached u = none) : (g.updateCopy t w).cached u = none :=
  cached_putSet_none hc (fun _ h0 h1 => ⟨wayHolds_update hw h0, wayHolds_update hw h1⟩)

theorem tag_of_update {w x : Option CoefRecord} {a : CoefRecord} (hw : ∀ r, w = some r → r.tag = t)
    (ha : (if wayHolds x t then w else x) = some a) : ∃ b, x = some b ∧ b.tag = a.tag := by
  split at ha
  next ht =>
    cases x with
    | none => cases ht
    | some b => exact ⟨b, rfl, by rw [hw a ha]; simpa [wayHolds] using ht⟩
  next => exact ⟨a, ha, rfl⟩

theorem waysDiffer_updateCopy {w : Option CoefRecord} (hw : ∀ r, w = some r → r.tag = t)
    (hways : WaysDiffer g.cache) : WaysDiffer (g.updateCopy t w).cache := by
  refine waysDiffer_set hways (fun a b ha hb => ?_)
  obtain ⟨a', ha', hta⟩ := tag_of_update hw ha
  obtain ⟨b', hb', htb⟩ := tag_of_update hw hb
  rw [← hta, ← htb]
  exact waysDiffer_setOf hways a' b' ha' hb'

/-- The law through the end of the write in service. -/
theorem fillLaw_writeEnds {w : Option CoefRecord} {r : CoefRecord} {e : Bool} {rest : List ParamOp} (hl : live)
    (hq : g.queue = .write r e :: rest) (hw : ∀ r, w = some r → r.tag = t) (hg : g.fillLaw live) :
    (g.updateCopy t w).endOperation.fillLaw live := by
  obtain ⟨hways, hnodup, hcached, hwanted⟩ := hg
  rw [hq] at hnodup hcached hwanted
  have hrest : (g.updateCopy t w).queue.drop 1 = rest := by
    show g.queue.drop 1 = rest
    rw [hq]; rfl
  apply fillLaw_endOperation (waysDiffer_updateCopy hw hways) <;> rw [hrest]
  · exact hnodup
  · exact fun u hu => cached_updateCopy_none hw (hcached u hu)
  · intro x hx hk
    obtain ⟨_, hfill, hc⟩ := hwanted hl x hx hk
    exact ⟨hfill, cached_updateCopy_none hw hc⟩

/-! ## Resets -/

theorem cached_invalid (hc : g.cache = invalidCache) : g.cached u = none := by
  have hset : g.setOf u = CacheSet.invalid := by
    unfold GapControl.setOf
    rw [hc, invalidCache, List.getD_eq_getElem?_getD, List.getElem?_replicate]
    split <;> rfl
  rw [cached_eq_none_iff, hset]
  exact ⟨rfl, rfl⟩

theorem waysDiffer_invalid : WaysDiffer invalidCache := by
  intro x hx a b ha
  rw [List.eq_of_mem_replicate hx] at ha
  cases ha

/-- An invalid cache with at most one operation in the queue and no head waiting. -/
theorem fillLaw_invalid (hc : g.cache = invalidCache) (hq : g.queue.length ≤ 1) (hw : g.waiting = none) :
    g.fillLaw live := by
  refine ⟨hc ▸ waysDiffer_invalid, ?_, fun _ _ => cached_invalid hc, fun _ w hs => ?_⟩
  · have hlen : (fillTags g.queue).length ≤ 1 := (List.length_filterMap_le _ _).trans hq
    exact List.nodup_iff_count_le_one.mpr (fun a => (List.count_le_length).trans hlen)
  · rw [hw] at hs; cases hs

/-- What a fill of a tag reads as intact is a record of that tag (R151). -/
theorem tag_of_recordRead {bs : List Byte} {r : CoefRecord} (hr : recordRead t bs = some r) : r.tag = t := by
  unfold recordRead at hr
  split at hr
  · dsimp only at hr
    split at hr
    next hok =>
      cases hr
      simp only [Bool.and_eq_true, decide_eq_true_eq] at hok
      exact hok.1.2
    next => cases hr
  · cases hr

end Sys2Proof.Machine
end

section
/-! SUPPORT. The laws of the machine as laws of its node, block by block, and what it is for an operation of the
node to keep them all: the relation that every operation is shown to be in. -/

namespace Sys2Proof.Machine

set_option Elab.async false

/-! ## The laws by their blocks -/

/-- The Tracking Unit's collections lie within their sizes (R88, R90, R94), and with E unset the arrival queue
is empty. -/
def Tracking.sized (t : Tracking) : Prop :=
  t.weldList.length ≤ 4 ∧ t.exitTrack.length ≤ 48 ∧ t.arrival.length ≤ 16 ∧
    (t.expected = none → t.arrival = [])

/-- The conservation law of the exit track (R103) with `k` closed segments still to join it. -/
def Tracking.owes (k : Nat) (t : Tracking) : Prop :=
  t.counts.closed < 65535 →
    t.counts.closed = t.counts.published + t.counts.exitDiscarded + t.exitTrack.length + k

/-- The origin record's own law (R165): no pending origin without an active one, and no station twice. -/
def TripUnit.recordHolds (t : TripUnit) : Prop :=
  (t.pending ≠ none → t.active ≠ none) ∧
    ∀ a p, t.active = some a → t.pending = some p → a.station ≠ p.station

/-- Nothing is recorded and nothing was dropped. -/
def TripUnit.blank (t : TripUnit) : Prop := t.active = none ∧ t.pending = none ∧ t.dropped = 0

/-- A machine with a node, for the laws that speak of a machine. -/
abbrev onNode (c : Settings) (n : Node) : State := { settings := c, paramMem := [], node := n, pending := [] }

theorem originLaw_iff (s : State) :
    s.originLaw ↔ s.node.trip.recordHolds ∧ (s.node.seq.stand.stopped = false → s.node.trip.blank) :=
  and_assoc.symm

theorem slotLaw_iff (s : State) : s.slotLaw ↔ SlotsOnce s.node.sched.slots ∧
    (s.node.seq.stand ≠ .rolling → slotCount Slot.isPending s.node.sched.slots = 0) := by
  unfold State.slotLaw SlotsOnce
  constructor
  · rintro ⟨ha, hp, hr, ho⟩; exact ⟨⟨ha, hp, ho⟩, hr⟩
  · rintro ⟨⟨ha, hp, ho⟩, hr⟩; exact ⟨ha, hp, hr, ho⟩

/-! ## Keeping the laws -/

/-- From a node to a node outside a reset: each law but that of the reference is kept. -/
structure KeepsRest (c : Settings) (n m : Node) : Prop where
  phase : m.startup.phase = n.startup.phase := by rfl
  image : m.startup.imageRead = n.startup.imageRead := by rfl
  starting : n.seq.stand = .starting → m.seq.stand = .starting := by exact fun h => h
  counters : n.flt.counters.length = 32 → m.flt.counters.length = 32 := by exact fun h => h
  ringSized : n.ring.sized → m.ring.sized := by exact fun h => h
  table : n.dir.table.length ≤ 4 → m.dir.table.length ≤ 4 := by exact fun h => h
  fifo : n.meas.fifo.length ≤ 32 → m.meas.fifo.length ≤ 32 := by exact fun h => h
  trackSized : n.track.sized → m.track.sized := by exact fun h => h
  queue : n.gap.queue.length ≤ 4 → m.gap.queue.length ≤ 4 := by exact fun h => h
  conserved : n.track.owes 0 → m.track.owes 0 := by exact fun h => h
  origin : (onNode c n).live → (onNode c n).startupHolds → (onNode c n).originLaw → (onNode c m).originLaw := by
    exact fun _ _ h => h
  slots : (onNode c n).slotLaw → (onNode c m).slotLaw := by exact fun h => h
  retract : (onNode c n).retractHeld → (onNode c m).retractHeld := by exact fun h => h
  cache : (onNode c n).live → (onNode c n).cacheLaw → (onNode c m).cacheLaw := by exact fun _ h => h

/-- From a node to a node outside a reset: every law is kept. -/
structure Keeps (c : Settings) (n m : Node) : Prop extends KeepsRest c n m where
  gap : (onNode c n).gapLaw → (onNode c m).gapLaw := by exact fun h => h

variable {c : Settings} {n m k : Node}

theorem KeepsRest.live (h : KeepsRest c n m) (hl : (onNode c n).live) : (onNode c m).live := by
  unfold State.live at hl ⊢
  exact h.phase ▸ hl

/-- Start-up that has not ended stays in STARTING (R190). -/
theorem KeepsRest.startup (h : KeepsRest c n m) (hs : (onNode c n).startupHolds) :
    (onNode c m).startupHolds := by
  obtain ⟨hstart, hstation⟩ := hs
  unfold State.startupHolds
  simp only [h.phase]
  exact ⟨fun hp => h.starting (hstart hp), hstation⟩

theorem KeepsRest.trans (h : KeepsRest c n m) (g : KeepsRest c m k) : KeepsRest c n k where
  phase := g.phase.trans h.phase
  image := g.image.trans h.image
  starting := g.starting ∘ h.starting
  counters := g.counters ∘ h.counters
  ringSized := g.ringSized ∘ h.ringSized
  table := g.table ∘ h.table
  fifo := g.fifo ∘ h.fifo
  trackSized := g.trackSized ∘ h.trackSized
  queue := g.queue ∘ h.queue
  conserved := g.conserved ∘ h.conserved
  origin := fun hl hs ho => g.origin (h.live hl) (h.startup hs) (h.origin hl hs ho)
  slots := g.slots ∘ h.slots
  retract := g.retract ∘ h.retract
  cache := fun hl hc => g.cache (h.live hl) (h.cache hl hc)

theorem Keeps.trans (h : Keeps c n m) (g : Keeps c m k) : Keeps c n k where
  toKeepsRest := h.toKeepsRest.trans g.toKeepsRest
  gap := g.gap ∘ h.gap

theorem Keeps.refl (c : Settings) (n : Node) : Keeps c n n := {}

/-- What each of several operations keeps, all of them in turn keep. -/
theorem keeps_foldl {α : Type} {f : Node → α → Node} (h : ∀ n a, Keeps c n (f n a)) (xs : List α) :
    ∀ n, Keeps c n (xs.foldl f n) := by
  induction xs with
  | nil => exact fun n => .refl c n
  | cons x xs ih => exact fun n => (h n x).trans (ih _)

/-! ## The transmit side -/

/-- Whatever the Ring Port, Ring Membership and the Fault Unit become within their sizes, the laws hold. -/
theorem keeps_link {r : RingPort} {f : FaultUnit} (b : Membership) (h : RepKept ⟨n.ring, n.flt⟩ ⟨r, f⟩) :
    Keeps c n { n with ring := r, flt := f, memb := b } where
  ringSized := h.sized
  counters := h.counters

theorem keeps_ring {r : RingPort} (h : n.ring.sized → r.sized) : Keeps c n { n with ring := r } where
  ringSized := h

theorem keeps_memb (b : Membership) : Keeps c n { n with memb := b } := {}

/-- The Fault Unit with as many counters. -/
theorem keeps_flt {f : FaultUnit} (h : n.flt.counters.length = 32 → f.counters.length = 32) :
    Keeps c n { n with flt := f } where
  counters := h

variable (c n)

theorem keeps_pump : Keeps c n (pump c n) := keeps_ring (fun h => sized_pump _ h)

theorem keeps_offer (o : OwnFrame) : Keeps c n (offer c o n) := keeps_link n.memb (repKept_offer _ o _)

theorem keeps_settle : Keeps c n (settle c n) := keeps_link n.memb (repKept_settle _ _)

theorem keeps_offerNow (o : OwnFrame) : Keeps c n (offerNow c o n) :=
  (keeps_offer c n o).trans (keeps_settle c _)

theorem keeps_finish : Keeps c n (finish c n) := (keeps_settle c n).trans (keeps_pump c _)

theorem keeps_defer (code : FaultCode) : Keeps c n (defer code n) := keeps_flt id

theorem keeps_reply (q g : Byte) (i : Nat) (st : Status) (v : List Byte) : Keeps c n (reply c q g i st v n) :=
  keeps_offerNow c n _

theorem keeps_answer (h : Header) (i : Nat) (st : Status) : Keeps c n (answer c h i st n) :=
  keeps_reply c n _ _ _ _ _

theorem keeps_reportEvent (ev : FaultEvent) : Keeps c n (reportEvent c ev n) :=
  keeps_link n.memb (repKept_report _ ev _)

theorem keeps_countEvent (ev : FaultEvent) : Keeps c n (countEvent ev n) :=
  keeps_flt (fun h => (length_bumpAt _ _).trans h)

/-! ## The request table -/

variable {c n}

theorem keeps_dir {d : Directory} (h : n.dir.table.length ≤ 4 → d.table.length ≤ 4) :
    Keeps c n { n with dir := d } where
  table := h

variable (c n)

theorem keeps_endEntryDeferred (p : ReqEntry → Bool) (st : Status) (v : List Byte) :
    Keeps c n (endEntryDeferred c p st v n) := by
  unfold endEntryDeferred
  split
  · exact .refl c n
  · exact (keeps_dir (fun h => List.length_eraseP_le.trans h)).trans (keeps_offer c _ _)

theorem keeps_endEntry (p : ReqEntry → Bool) (st : Status) (v : List Byte) :
    Keeps c n (endEntry c p st v n) :=
  (keeps_endEntryDeferred c n p st v).trans (keeps_settle c _)

theorem keeps_abortPreset : Keeps c n (abortPreset c n) := keeps_endEntryDeferred c n _ _ _

/-- A request takes a place in a table with room (R51). -/
theorem keeps_addEntry (e : ReqEntry) (h : tableFull n = false) : Keeps c n (addEntry e n) :=
  keeps_dir (fun _ => by
    simp only [tableFull, decide_eq_false_iff_not, not_le] at h
    simp only [List.length_append, List.length_cons, List.length_nil]
    omega)

theorem keeps_echo (i : Nat) (v : List Byte) : Keeps c n (echo c i v n) := by
  unfold echo
  split
  · exact .refl c n
  · refine (keeps_dir ?_).trans (keeps_offerNow c _ _)
    exact fun h => h

theorem keeps_answerEchoed (h : Header) (i : Nat) (v : List Byte) : Keeps c n (answerEchoed c h i v n) :=
  (keeps_answer c n h i .done).trans (keeps_echo c _ i v)

/-! ## The Gap Controller -/

variable {c n}

/-- A change of the Gap Controller that leaves the reference and the base. -/
theorem keeps_gap {g : GapControl} (href : g.reference = n.gap.reference) (hbase : g.base = n.gap.base)
    (hq : n.gap.queue.length ≤ 4 → g.queue.length ≤ 4)
    (hlaw : (onNode c n).live → n.gap.fillLaw (onNode c n).live → g.fillLaw (onNode c n).live) :
    Keeps c n { n with gap := g } where
  queue := hq
  cache := hlaw
  retract := fun h hl hs => by
    obtain ⟨h1, h2⟩ := h hl hs
    exact ⟨href.trans h1, hbase.trans h2⟩
  gap := fun ⟨hvalid, hready, hlimits⟩ => by
    refine ⟨hvalid, fun hst => ?_, fun hl hs id r ha => ?_⟩
    · obtain ⟨h1, h2⟩ := hready hst
      exact ⟨h1, (congrArg Option.isSome hbase).trans h2⟩
    · have := hlimits hl hs id r ha
      rw [← href] at this
      exact this

/-- Likewise where the cache and the queue stay, and no fill becomes wanted. -/
theorem keeps_gapTerms {g : GapControl} (href : g.reference = n.gap.reference := by rfl)
    (hbase : g.base = n.gap.base := by rfl) (hc : g.cache = n.gap.cache := by rfl)
    (hq : g.queue = n.gap.queue := by rfl)
    (hw : ∀ w, g.waiting = some w → w.wanted = true → n.gap.waiting = some w := by exact fun _ h _ => h) :
    Keeps c n { n with gap := g } :=
  keeps_gap href hbase (fun h => hq ▸ h) (fun _ => fillLaw_congr hc hq hw)

section Refer
variable (c : NodeConfig) (r : Nat) (g : GapControl)

theorem refer_rest : ∃ s t k m, g.refer c r =
    { g with reference := r, supervision := s, target := t, timer := k, moves := m } := by
  unfold GapControl.refer
  split
  next h => exact ⟨_, _, _, _, by rw [h]⟩
  next =>
    dsimp only
    split
    · split <;> exact ⟨_, _, _, _, rfl⟩
    · split <;> exact ⟨_, _, _, _, rfl⟩
    · exact ⟨_, _, _, _, rfl⟩

@[simp] theorem refer_reference : (g.refer c r).reference = r := by
  obtain ⟨_, _, _, _, h⟩ := refer_rest c r g; rw [h]
@[simp] theorem refer_base : (g.refer c r).base = g.base := by
  obtain ⟨_, _, _, _, h⟩ := refer_rest c r g; rw [h]
@[simp] theorem refer_cache : (g.refer c r).cache = g.cache := by
  obtain ⟨_, _, _, _, h⟩ := refer_rest c r g; rw [h]
@[simp] theorem refer_queue : (g.refer c r).queue = g.queue := by
  obtain ⟨_, _, _, _, h⟩ := refer_rest c r g; rw [h]
@[simp] theorem refer_waiting : (g.refer c r).waiting = g.waiting := by
  obtain ⟨_, _, _, _, h⟩ := refer_rest c r g; rw [h]
end Refer

/-- A clamped demand lies within the gap limits of a validated schedule (R139). -/
theorem clampGap_within {r : Schedule} (hv : r.valid = true) (d : Int) :
    r.gapMin ≤ clampGap r d ∧ clampGap r d ≤ r.gapMax := by
  have hlt : r.gapMin < r.gapMax := by
    unfold Schedule.valid at hv
    simp only [Bool.and_eq_true, decide_eq_true_eq] at hv
    tauto
  have := clampGap_eq_clamped r d
  unfold clamped at this
  omega

/-- What a reassembly does: nothing; in a strip state with a schedule ACTIVE, the reference takes the clamped
demand; outside the strip states, the reference takes the base (R139). -/
theorem reassemble_cases (c : Settings) (n : Node) :
    reassemble c n = n ∧ (n.gap.base = none ∨ n.seq.stand.strip = true ∧ n.sched.active = none) ∨
    (∃ id r d g f, n.seq.stand.strip = true ∧ n.sched.active = some (id, r) ∧ g.base = n.gap.base ∧
      g.cache = n.gap.cache ∧ g.queue = n.gap.queue ∧ g.waiting = n.gap.waiting ∧
      g.reference = clampGap r d ∧ f.counters = n.flt.counters ∧
      reassemble c n = { n with gap := g, flt := f }) ∨
    ∃ b, n.seq.stand.strip = false ∧ n.gap.base = some b ∧
      reassemble c n = { n with gap := n.gap.refer c.config b } := by
  unfold reassemble
  cases hb : n.gap.base with
  | none => exact .inl ⟨rfl, .inl rfl⟩
  | some b =>
    cases hs : n.seq.stand.strip with
    | false => exact .inr (.inr ⟨b, rfl, rfl, rfl⟩)
    | true =>
      cases ha : n.sched.active with
      | none => exact .inl ⟨rfl, .inr ⟨rfl, rfl⟩⟩
      | some x =>
        obtain ⟨id, r⟩ := x
        refine .inr (.inl ⟨id, r, _, _, _, rfl, rfl, ?_, ?_, ?_, ?_, refer_reference _ _ _, ?_, rfl⟩)
        · rw [refer_base]; exact hb
        · rw [refer_cache]
        · rw [refer_queue]
        · rw [refer_waiting]
        · split <;> rfl

theorem keepsRest_reassemble (c : Settings) (n : Node) : KeepsRest c n (reassemble c n) := by
  obtain ⟨h, _⟩ | ⟨id, r, d, g, f, hs, _, _, hc, hq, hw, _, hf, h⟩ | ⟨b, hs, hb, h⟩ := reassemble_cases c n
  · rw [h]; exact (Keeps.refl c n).toKeepsRest
  · rw [h]
    refine { counters := fun k => (congrArg List.length hf).trans k, queue := fun k => hq ▸ k, retract := ?_,
             cache := fun _ => fillLaw_congr hc hq (fun w hx _ => hw ▸ hx) }
    intro _ _ hstop
    have : n.seq.stand.stopped = true := hstop
    cases hst : n.seq.stand <;> simp_all [StandState.strip, StandState.stopped]
  · rw [h]
    refine { queue := fun k => (refer_queue _ _ _).symm ▸ k, retract := fun k hl hstop => ?_,
             cache := fun _ => fillLaw_congr (refer_cache _ _ _) (refer_queue _ _ _)
               (fun w hx _ => (refer_waiting _ _ _).symm.trans hx) }
    obtain ⟨_, hbase⟩ := k hl hstop
    have hretract : b = c.config.retractGap := Option.some.inj (hb.symm.trans hbase)
    exact ⟨(refer_reference _ _ _).trans hretract, (refer_base _ _ _).trans hbase⟩

/-- A reassembly brings the reference within the ACTIVE gap limits, wherever it stood (R139). -/
theorem gapLaw_reassemble (hvalid : SlotsValid n.sched.slots)
    (hready : n.seq.stand = .preset ∨ n.seq.stand = .ready ∨ n.seq.stand.strip = true →
      n.sched.active.isSome = true ∧ n.gap.base.isSome = true) :
    (onNode c (reassemble c n)).gapLaw := by
  obtain ⟨h, hnone⟩ | ⟨id, r, d, g, f, hs, ha, hb, _, _, _, href, _, h⟩ | ⟨b, hs, hb, h⟩ := reassemble_cases c n
  · rw [h]
    refine ⟨hvalid, hready, fun _ hs id r ha => ?_⟩
    obtain ⟨hactive, hbase⟩ := hready (.inr (.inr hs))
    obtain hn | ⟨_, hn⟩ := hnone
    · rw [hn] at hbase; cases hbase
    · rw [hn] at hactive; cases hactive
  · rw [h]
    refine ⟨hvalid, fun hst => ⟨(hready hst).1, (congrArg Option.isSome hb).trans (hready hst).2⟩, ?_⟩
    intro _ _ id' r' ha'
    have hr : (id', r') = (id, r) := Option.some.inj (ha'.symm.trans ha)
    cases hr
    obtain ⟨x, hx, hrec⟩ := exists_slot_of_active ha
    have := clampGap_within (hvalid x hx r hrec) d
    rw [← href] at this
    exact this
  · rw [h]
    refine ⟨hvalid, fun hst => ⟨(hready hst).1, ?_⟩, fun _ hs' => ?_⟩
    · exact (congrArg Option.isSome (refer_base _ _ _)).trans (hready hst).2
    · exact absurd (hs.symm.trans hs') (by decide)

theorem keeps_reassemble (c : Settings) (n : Node) : Keeps c n (reassemble c n) where
  toKeepsRest := keepsRest_reassemble c n
  gap := fun ⟨hvalid, hready, _⟩ => gapLaw_reassemble hvalid hready

variable (c n)

theorem keeps_reassembleNow : Keeps c n (reassembleNow c n) :=
  (keeps_reassemble c n).trans (keeps_settle c _)

theorem keeps_reassembleUnheld : Keeps c n (reassembleUnheld c n) := by
  unfold reassembleUnheld
  split
  · exact keeps_reassembleNow c n
  · exact .refl c n

theorem keeps_setMonitor (v : Int) : Keeps c n (setMonitor c v n) := by
  unfold setMonitor
  split
  · exact .refl c n
  · exact (keeps_gapTerms).trans (keeps_reassembleNow c _)

theorem keeps_lookup (t : CoefTag) : Keeps c n { n with gap := (n.gap.lookup t).1 } :=
  keeps_gap (lookup_reference t) (lookup_base t) (fun h => (lookup_queue (g := n.gap) t).symm ▸ h)
    (fun _ => fillLaw_lookup t)

/-- A lookup that misses, and the fill that it asks for where there is room (R142). -/
theorem keeps_fillIfRoom {t : CoefTag} (hc : n.gap.cached t = none) :
    Keeps c n { n with gap := n.gap.fillIfRoom t } := by
  obtain ⟨href, hbase, _⟩ := fillIfRoom_kept (g := n.gap) t
  exact keeps_gap href hbase (length_fillIfRoom t) (fun _ => fillLaw_fillIfRoom hc)

theorem keeps_monitorUpdate (d : Option Int) : Keeps c n (monitorUpdate c d n) := by
  unfold monitorUpdate
  split
  · exact keeps_gapTerms
  · split
    · exact keeps_setMonitor c n 0
    · split
      · exact .refl c n
      · have hlook := keeps_lookup c n n.presentTag
        split
        next g r heq =>
          rw [heq] at hlook
          exact hlook.trans (keeps_setMonitor c _ _)
        next g heq =>
          have hmiss := cached_of_lookup_none (g := n.gap) (t := n.presentTag) (by rw [heq])
          rw [heq] at hlook hmiss
          obtain ⟨hnone, hcache⟩ := hmiss
          exact hlook.trans ((keeps_fillIfRoom c _ ((cached_congr hcache).trans hnone)).trans keeps_gapTerms)

/-- A base may be given to the Gap Controller in any stand state before a trip. -/
theorem keeps_setBase (b : Nat) (hs : n.seq.stand.stopped = false) : Keeps c n (setBase b n) where
  retract := fun _ _ hstop => absurd (hs.symm.trans hstop) (by decide)
  gap := fun ⟨hvalid, hready, hlimits⟩ => ⟨hvalid, fun hst => ⟨(hready hst).1, rfl⟩, hlimits⟩

end Sys2Proof.Machine
end

section
/-! SUPPORT. Trip entry, local causes, holds and the raising of faults (R116 to R118, R163 to R167, R174, R179)
keep the laws. -/

namespace Sys2Proof.Machine

set_option Elab.async false

variable {c : Settings} {n : Node}

/-! ## The Tracking Unit at trip entry -/

theorem satAdd_le (a b : Nat) : satAdd a b ≤ a + b := by unfold satAdd; omega

theorem satAdd_of_lt {a b : Nat} (h : a + b < 65535) : satAdd a b = a + b := by unfold satAdd; omega

theorem owes_clearArrival {t : Tracking} {k : Nat} (h : t.owes k) : t.clearArrival.owes k := h

/-- The records that trip entry discards are counted as discarded (R100, R103). -/
theorem owes_abandonRun {t : Tracking} {k : Nat} (h : t.owes k) : t.abandonRun.owes k := by
  intro hc
  have hk := h hc
  have hsum : t.counts.exitDiscarded + t.exitTrack.length < 65535 := by
    have : t.counts.closed < 65535 := hc
    omega
  show t.counts.closed = t.counts.published + satAdd t.counts.exitDiscarded t.exitTrack.length + 0 + k
  rw [satAdd_of_lt hsum]
  omega

theorem sized_clearArrival {t : Tracking} (h : t.sized) : t.clearArrival.sized := by
  obtain ⟨_, hexit, _⟩ := h
  exact ⟨Nat.zero_le _, hexit, Nat.zero_le _, fun _ => rfl⟩

theorem sized_abandonRun {t : Tracking} (h : t.sized) : t.abandonRun.sized := by
  obtain ⟨hweld, _, harr, hexp⟩ := h
  exact ⟨hweld, Nat.zero_le _, harr, hexp⟩

/-! ## Slots that are disarmed -/

theorem slotsOnce_disarm {v : Four Slot} (h : SlotsOnce v) : SlotsOnce (mapFour Slot.disarm v) :=
  slotsOnce_mapFour (fun x hx => by simpa [Slot.isActive_eq] using hx) (fun x hx => by simp at hx)
    (fun x i hx => by simpa using hx) h

/-- A disarmed store keeps the law of the slots in every stand state (R123, R130). -/
theorem slotLaw_disarm {s t : State} (hslots : t.node.sched.slots = mapFour Slot.disarm s.node.sched.slots)
    (h : s.slotLaw) : t.slotLaw := by
  rw [slotLaw_iff] at h ⊢
  rw [hslots]
  exact ⟨slotsOnce_disarm h.1, fun _ => slotCount_none disarm_isPending⟩

theorem slotsValid_disarm {v : Four Slot} (h : SlotsValid v) : SlotsValid (mapFour Slot.disarm v) :=
  slotsValid_mapFour (fun x r hr => by simpa using hr) h

/-! ## Trip entry (R167) -/

theorem notStrip_of_stopped {st : StandState} (h : st.stopped = true) : st.strip = false := by
  cases st <;> simp_all [StandState.stopped, StandState.strip]

/-- A law of the reference that speaks of no stand state under way (R139). -/
theorem gapLaw_of_noStrip {s : State} (hvalid : SlotsValid s.node.sched.slots)
    (hstand : s.node.seq.stand = .starting ∨ s.node.seq.stand = .quiet ∨ s.node.seq.stand.stopped = true) :
    s.gapLaw := by
  have hno : s.node.seq.stand.strip = false ∧ s.node.seq.stand ≠ .preset ∧ s.node.seq.stand ≠ .ready := by
    obtain h | h | h := hstand
    · rw [h]; decide
    · rw [h]; decide
    · refine ⟨notStrip_of_stopped h, ?_, ?_⟩ <;> rintro e <;> rw [e] at h <;> cases h
  obtain ⟨hstrip, hpreset, hready⟩ := hno
  refine ⟨hvalid, ?_, fun _ hs => absurd (hstrip.symm.trans hs) (by decide)⟩
  rintro (h | h | h)
  · exact absurd h hpreset
  · exact absurd h hready
  · exact absurd (hstrip.symm.trans h) (by decide)

/-- Trip entry, from a stand that has left STARTING, whose origin record the law admits in TRIPPED. -/
theorem keeps_enterTrippedQuietly {t : TripUnit} (hs : n.seq.stand ≠ .starting)
    (ht : (onNode c n).live → (onNode c n).startupHolds → (onNode c n).originLaw → t.recordHolds) :
    Keeps c n (enterTrippedQuietly c { n with trip := t }) where
  starting := fun h => absurd h hs
  fifo := fun _ => Nat.zero_le _
  trackSized := fun h => sized_clearArrival (sized_abandonRun h)
  conserved := fun h => owes_clearArrival (owes_abandonRun h)
  origin := fun hl hst ho => (originLaw_iff _).mpr ⟨ht hl hst ho, fun h => nomatch (h : true = false)⟩
  slots := slotLaw_disarm rfl
  retract := fun _ _ _ => ⟨rfl, rfl⟩
  cache := fun _ => fillLaw_congr rfl rfl (fun _ h => by cases h)
  gap := fun ⟨hvalid, _⟩ => gapLaw_of_noStrip (slotsValid_disarm hvalid) (.inr (.inr rfl))

/-- An origin record that changes in TRIPPED or LOCKOUT. -/
theorem keeps_trip {t : TripUnit} (ht : (onNode c n).live → (onNode c n).startupHolds →
      (onNode c n).originLaw → t.recordHolds ∧ (n.seq.stand.stopped = false → t.blank)) :
    Keeps c n { n with trip := t } where
  origin := fun hl hst ho => (originLaw_iff _).mpr (ht hl hst ho)

/-- A Trip Unit with its record as it stood. -/
theorem keeps_tripCounts {t : TripUnit} (ha : t.active = n.trip.active := by rfl)
    (hp : t.pending = n.trip.pending := by rfl) (hd : t.dropped = n.trip.dropped := by rfl) :
    Keeps c n { n with trip := t } :=
  keeps_trip (fun _ _ ho => by
    rw [originLaw_iff] at ho
    unfold TripUnit.recordHolds TripUnit.blank at *
    rw [ha, hp, hd]
    exact ho)

/-- A new origin record, with the trip entry that it makes outside TRIPPED and LOCKOUT (R165, R167). -/
theorem keeps_enterTrippedIfNot {t : TripUnit} (hs : n.seq.stand ≠ .starting)
    (ht : (onNode c n).live → (onNode c n).startupHolds → (onNode c n).originLaw → t.recordHolds) :
    Keeps c n (enterTrippedIfNot c { n with trip := t }) := by
  unfold enterTrippedIfNot
  split
  next hstop =>
    refine keeps_trip (fun hl hst ho => ⟨ht hl hst ho, fun h => ?_⟩)
    exact absurd (h.symm.trans hstop) (by decide)
  next => exact (keeps_enterTrippedQuietly hs ht).trans (keeps_abortPreset c _)

/-! ## Origins (R163, R165) -/

theorem ne_of_not_recorded {t : TripUnit} {k : Nat} (h : t.recorded k = false) :
    (∀ a, t.active = some a → a.station ≠ k) ∧ ∀ p, t.pending = some p → p.station ≠ k := by
  unfold TripUnit.recorded holdsStation at h
  rw [Bool.or_eq_false_iff] at h
  obtain ⟨ha, hp⟩ := h
  refine ⟨fun a e => ?_, fun p e => ?_⟩
  · rw [e] at ha; simpa using ha
  · rw [e] at hp; simpa using hp

/-- An origin of a station not yet recorded is placed (R165). -/
theorem recordHolds_placeOrigin {t : TripUnit} {o : Origin} (h : t.recordHolds)
    (ho : t.recorded o.station = false) : (t.placeOrigin o).recordHolds := by
  have ⟨hfirst, _⟩ := h
  obtain ⟨hactive, _⟩ := ne_of_not_recorded ho
  unfold TripUnit.placeOrigin
  split
  next hnone =>
    refine ⟨fun _ => by simp, fun a p ha hp => absurd hnone ?_⟩
    exact hfirst (by rw [show t.pending = some p from hp]; simp)
  next a hsome hnone =>
    refine ⟨fun _ => by simp [hsome], fun a' p ha hp => ?_⟩
    obtain rfl : o = p := Option.some.inj hp
    exact hactive a' ha
  next => exact h

/-- The record with the unknown active origin replaced by one of a station not yet recorded (R166). -/
theorem recordHolds_replace {t : TripUnit} {o : Origin} (ho : t.recorded o.station = false) :
    ({ t with active := some o } : TripUnit).recordHolds := by
  obtain ⟨_, hpending⟩ := ne_of_not_recorded ho
  refine ⟨fun _ => by simp, fun a p ha hp => ?_⟩
  obtain rfl : o = a := Option.some.inj ha
  exact (hpending p hp).symm

theorem recordHolds_retire {t : TripUnit} (gone : Origin → Bool) (h : t.recordHolds) :
    (t.retire gone).recordHolds := by
  obtain ⟨_, hdiffer⟩ := h
  unfold TripUnit.retire
  dsimp only
  split
  next a ha =>
    refine ⟨fun _ => by simp [ha], fun x p hx hp => ?_⟩
    exact hdiffer x p (Option.filter_eq_some_iff.mp hx).1 (Option.filter_eq_some_iff.mp hp).1
  next => exact ⟨fun hp => absurd rfl hp, fun _ _ _ hp => by cases hp⟩

theorem blank_retire {t : TripUnit} (gone : Origin → Bool) (h : t.blank) : (t.retire gone).blank := by
  obtain ⟨ha, hp, hd⟩ := h
  unfold TripUnit.retire
  simp only [ha, hp, Option.filter_none]
  exact ⟨rfl, rfl, hd⟩

/-- An origin retired, with its successor moved up (R165, R169). -/
theorem keeps_retire (gone : Origin → Bool) : Keeps c n { n with trip := n.trip.retire gone } :=
  keeps_trip (fun _ _ ho => by
    obtain ⟨hrec, hblank⟩ := (originLaw_iff _).mp ho
    exact ⟨recordHolds_retire gone hrec, fun h => blank_retire gone (hblank h)⟩)

/-- Once STARTING is left, outside a reset, the node has a station number (R189). -/
theorem station_pos {s : State} (hl : s.live) (hs : s.startupHolds) (hst : s.node.seq.stand ≠ .starting) :
    1 ≤ s.settings.station ∧ s.settings.station ≤ 30 := by
  obtain ⟨hstart, hstation⟩ := hs
  cases hp : s.node.startup.phase with
  | inReset => exact absurd hp hl
  | reading => exact absurd (hstart (.inl hp)) hst
  | invalid => exact absurd (hstart (.inr hp)) hst
  | running => exact hstation (.inr hp)

/-! ## Local causes (R163, R174) -/

theorem keeps_offerTrip (o : Origin) : Keeps c n (offerTrip c o n) := by
  refine (keeps_ring ?_).trans (keeps_pump c _)
  exact fun h => h

theorem keeps_takeCause (kind detail : Byte) (hs : n.seq.stand ≠ .starting) :
    Keeps c n (takeCause c kind detail n) := by
  unfold takeCause
  split
  · exact keeps_tripCounts
  next hr =>
    refine (keeps_offerTrip (ownOrigin c kind detail n)).trans
      (keeps_enterTrippedIfNot (t := n.trip.placeOrigin (ownOrigin c kind detail n)) hs (fun _ _ ho => ?_))
    obtain ⟨hrec, _⟩ := (originLaw_iff _).mp ho
    exact recordHolds_placeOrigin hrec (Bool.of_not_eq_true hr)

theorem keeps_enterLockout (hs : n.seq.stand = .tripped) : Keeps c n (enterLockout n) where
  starting := fun h => by rw [hs] at h; cases h
  origin := fun _ _ ho => by
    obtain ⟨hrec, _⟩ := (originLaw_iff _).mp ho
    exact (originLaw_iff _).mpr ⟨hrec, fun h => by cases h⟩
  slots := fun h => by
    rw [slotLaw_iff] at h ⊢
    exact ⟨h.1, fun _ => h.2 (by rw [show (onNode c n).node.seq.stand = .tripped from hs]; decide)⟩
  retract := fun h hl _ => h hl (by rw [show (onNode c n).node.seq.stand = .tripped from hs]; rfl)
  gap := fun ⟨hvalid, _⟩ => gapLaw_of_noStrip hvalid (.inr (.inr rfl))

theorem takeCause_tripped (kind detail : Byte) (hs : n.seq.stand = .tripped) :
    (takeCause c kind detail n).seq.stand = .tripped := by
  rw [takeCause_stopped c n kind detail (by rw [hs]; rfl)]
  split <;> exact hs

variable (c n)

theorem keeps_localCause (kind detail : Byte) (a : Bool) : Keeps c n (localCause c kind detail a n) := by
  unfold localCause
  split
  · exact .refl c n
  next hs =>
    split
    next ht =>
      have htripped : n.seq.stand = .tripped := by simpa using (Bool.and_eq_true_iff.mp ht).2
      exact (keeps_takeCause kind detail hs).trans
        (keeps_enterLockout (takeCause_tripped kind detail htripped))
    next => exact keeps_takeCause kind detail hs

/-! ## Holds (R116 to R118) -/

variable {c n}

/-- A Sequencer in the same stand state. -/
theorem keeps_seq {q : Sequencer} (h : q.stand = n.seq.stand := by rfl) : Keeps c n { n with seq := q } where
  starting := fun hs => h.trans hs
  origin := fun _ _ ho => by
    rw [originLaw_iff] at ho ⊢
    exact ⟨ho.1, fun hs => ho.2 (h ▸ hs)⟩
  slots := fun hl => by
    rw [slotLaw_iff] at hl ⊢
    exact ⟨hl.1, fun hs => hl.2 (h ▸ hs)⟩
  retract := fun hr hl hs => hr hl (show n.seq.stand.stopped = true from h ▸ hs)
  gap := fun ⟨hvalid, hready, hlimits⟩ =>
    ⟨hvalid, fun hst => hready (show n.seq.stand = _ ∨ n.seq.stand = _ ∨ n.seq.stand.strip = _ from h ▸ hst),
      fun hl hs => hlimits hl (show n.seq.stand.strip = true from h ▸ hs)⟩

variable (c n)

/-- The trims frozen, where the first cause starts a hold (R117). -/
theorem keeps_frozenTrims (first : Bool) : Keeps c n { n with gap := if first then
    { n.gap with frozenTrim := n.gap.gapTrim, frozenProfile := n.gap.profileTrim } else n.gap } := by
  cases first with
  | true => exact keeps_gapTerms
  | false => exact .refl c n

theorem keeps_setHold (k : HoldCause) : Keeps c n (setHold c k n) := by
  unfold setHold
  split
  · exact .refl c n
  · exact (keeps_frozenTrims c n (!n.seq.holds.any)).trans
      ((keeps_seq (n := { n with gap := _ }) (q := { n.seq with
        holds := n.seq.holds.put k true
        holdCount := if !n.seq.holds.any then satInc n.seq.holdCount else n.seq.holdCount })).trans
      (keeps_memb _))

theorem keeps_dropHold (k : HoldCause) : Keeps c n (dropHold k n) :=
  (keeps_seq (q := { n.seq with holds := n.seq.holds.put k false })).trans (keeps_memb _)

theorem keeps_clearHold (k : HoldCause) : Keeps c n (clearHold c k n) := by
  unfold clearHold
  split
  · exact .refl c n
  · split
    · exact (keeps_dropHold c n k).trans (keeps_reassembleNow c _)
    · exact keeps_dropHold c n k

/-! ## Raising a fault (R179, R182) -/

theorem keeps_routeEvent (ev : FaultEvent) : Keeps c n (routeEvent c ev n) := by
  unfold routeEvent
  split
  · exact .refl c n
  · exact keeps_localCause c n _ _ _
  · split
    · exact keeps_localCause c n _ _ _
    · split
      · exact keeps_setHold c n _
      · exact .refl c n

theorem keeps_handleEvent (ev : FaultEvent) : Keeps c n (handleEvent c ev n) :=
  (keeps_countEvent c n ev).trans ((keeps_routeEvent c _ ev).trans
    ((keeps_reportEvent c _ ev).trans (keeps_settle c _)))

theorem keeps_raise (code : FaultCode) : Keeps c n (raise c code n) :=
  (keeps_settle c n).trans (keeps_handleEvent c _ _)

theorem keeps_raiseAll (codes : List FaultCode) : Keeps c n (raiseAll c codes n) :=
  (keeps_settle c n).trans (keeps_foldl (fun m ev => keeps_handleEvent c m ev) _ _)

end Sys2Proof.Machine
end

section
/-! SUPPORT. Ring Membership, returns, losses and forwarding (spec 01, 02) keep the laws. -/

namespace Sys2Proof.Machine

set_option Elab.async false

variable (c : Settings) (n : Node)

/-! ## Changes of ring state -/

/-- A Ring Port with its queues as they stood, or emptied. -/
theorem sized_of_le {p q : RingPort} (hp : q.passBuffer.length ≤ p.passBuffer.length := by exact le_refl _)
    (hi : q.insertQueue.length ≤ p.insertQueue.length := by exact le_refl _)
    (ho : q.outstanding.length ≤ p.outstanding.length := by exact le_refl _) (h : p.sized) : q.sized :=
  ⟨hp.trans h.1, hi.trans h.2.1, ho.trans h.2.2⟩

/-- Ring Membership and a Ring Port whose queues do not grow. -/
theorem keeps_membership {n : Node} {r : RingPort} (b : Membership) (h : n.ring.sized → r.sized) :
    Keeps c n { n with memb := b, ring := r } :=
  keeps_link b { sized := h }

theorem keeps_setRing (s : RingState) : Keeps c n (setRing s n) :=
  keeps_membership c _ (fun h => sized_of_le (h := h))

theorem keeps_enterDark : Keeps c n (enterDark c n) := by
  refine (keeps_setRing c n .dark).trans ((keeps_membership c _ fun h => ?_).trans (keeps_pump c _))
  exact sized_of_le (hi := Nat.zero_le _) (ho := Nat.zero_le _) (h := h)

theorem keeps_offerClaim : Keeps c n (offerClaim c n) := keeps_offerNow c n _

theorem keeps_enterClaiming : Keeps c n (enterClaiming c n) := by
  refine (keeps_setRing c n .claiming).trans ((keeps_membership c _ fun h => ?_).trans (keeps_offerClaim c _))
  exact sized_flush h

theorem keeps_sendBeacon : Keeps c n (sendBeacon c n) := (keeps_memb _).trans (keeps_offerNow c _ _)

theorem keeps_enterSeeking : Keeps c n (enterSeeking c n) :=
  (keeps_setRing c n .seeking).trans ((keeps_memb _).trans ((keeps_pump c _).trans (keeps_sendBeacon c _)))

theorem keeps_enterJoined (both : Bool) : Keeps c n (enterJoined c both n) :=
  (keeps_setRing c n .joined).trans ((keeps_memb _).trans ((keeps_pump c _).trans (keeps_clearHold c _ _)))

theorem keeps_enterBroken : Keeps c n (enterBroken c n) := by
  refine (keeps_setRing c n .broken).trans
    ((keeps_membership c _ fun h => ?_).trans ((keeps_pump c _).trans (keeps_raise c _ _)))
  exact sized_of_le (ho := Nat.zero_le _) (h := h)

theorem keeps_enterConflict : Keeps c n (enterConflict c n) := by
  refine (keeps_setRing c n .conflict).trans
    ((keeps_membership c _ fun h => ?_).trans ((keeps_pump c _).trans (keeps_raise c _ _)))
  exact sized_of_le (hi := Nat.zero_le _) (ho := Nat.zero_le _) (h := h)

theorem keeps_carrierLocked : Keeps c n (carrierLocked c n) := by
  unfold carrierLocked
  split
  · exact .refl c n
  · refine (keeps_memb { n.memb with carrierLocked := true }).trans ?_
    dsimp only
    split
    · split
      · exact .refl c _
      · exact keeps_enterClaiming c _
    · exact keeps_enterClaiming c _
    · exact .refl c _

theorem keeps_carrierLost : Keeps c n (carrierLost c n) := by
  unfold carrierLost
  split
  · exact .refl c n
  · refine (keeps_memb { n.memb with
      carrierLocked := false, carrierLossCount := satInc n.memb.carrierLossCount }).trans ?_
    dsimp only
    split
    · exact keeps_enterDark c _
    · exact keeps_enterDark c _
    · exact keeps_enterBroken c _
    · exact .refl c _

/-! ## Claims, returns and losses -/

theorem keeps_claimLoss : Keeps c n (claimLoss c n) := by
  unfold claimLoss
  split
  · exact (keeps_memb _).trans (keeps_offerClaim c _)
  · exact .refl c n

theorem keeps_claimReturn (objected : Bool) : Keeps c n (claimReturn c objected n) := by
  unfold claimReturn
  split
  · split
    · exact keeps_enterConflict c n
    · exact keeps_enterSeeking c n
  · exact .refl c n

theorem keeps_closeRing : Keeps c n (closeRing c n) := by
  unfold closeRing
  split
  · exact (keeps_memb _).trans (keeps_clearHold c _ _)
  · exact keeps_memb _

theorem keeps_ringProved : Keeps c n (ringProved c n) := by
  refine (keeps_ring (r := { n.ring with lossCount := 0 }) fun h => sized_of_le (h := h)).trans ?_
  unfold ringProved
  dsimp only
  split
  · exact keeps_closeRing c _
  · exact .refl c _

theorem keeps_dropOldest : Keeps c n (dropOldest c n) := by
  refine (keeps_ring ?_).trans (keeps_pump c _)
  exact fun h => sized_of_le (ho := by simp only [List.length_drop]; omega) (h := h)

theorem keeps_loseOlder (e : OutEntry) : Keeps c n (loseOlder c e n) := by
  refine (keeps_dropOldest c n).trans ((keeps_raise c _ .ownFrameLost).trans ?_)
  unfold loseOlder
  dsimp only
  split
  · exact keeps_claimLoss c _
  · exact .refl c _

theorem keeps_matchReturn (tag : Byte) : Keeps c n (matchReturn c tag n) := by
  unfold matchReturn
  split
  · exact keeps_ring (fun h => sized_of_le (h := h))
  · exact (keeps_foldl (fun m e => keeps_loseOlder c m e) _ n).trans (keeps_dropOldest c _)

theorem keeps_returnOwn (tag : Byte) : Keeps c n (returnOwn c tag n) :=
  (keeps_matchReturn c n tag).trans (keeps_ringProved c _)

theorem keeps_forward (f : Frame) : Keeps c n (forward c f n) := by
  unfold forward
  split
  · exact keeps_raise c n _
  · split
    next hroom =>
      refine (keeps_ring ?_).trans (keeps_pump c _)
      rintro ⟨_, hi, ho⟩
      exact ⟨by simpa using hroom, hi, ho⟩
    next => exact keeps_raise c n _

theorem keeps_claimArrives (f : Frame) : Keeps c n (claimArrives c f n) := by
  unfold claimArrives
  split
  · exact keeps_forward c n f
  · split
    · refine (keeps_returnOwn c n f.tag).trans ?_
      dsimp only
      split
      · exact keeps_claimReturn c _ _
      · exact .refl c _
    · exact (keeps_forward c n _).trans (keeps_raise c _ _)

theorem keeps_countLoss : Keeps c n (countLoss c n) := by
  refine (keeps_ring (r := { n.ring with lossCount := satInc n.ring.lossCount })
    fun h => sized_of_le (h := h)).trans ?_
  unfold countLoss
  dsimp only
  split
  · exact (keeps_memb _).trans (keeps_raise c _ _)
  · exact .refl c _

theorem keeps_timeOutOldest (e : OutEntry) : Keeps c n (timeOutOldest c e n) := by
  refine (keeps_dropOldest c n).trans ((keeps_raise c _ .ownFrameLost).trans ((keeps_countLoss c _).trans ?_))
  unfold timeOutOldest
  dsimp only
  split
  · exact keeps_claimLoss c _
  · exact .refl c _

theorem keeps_timeOutMore (fuel : Nat) : ∀ n, Keeps c n (timeOutMore c fuel n) := by
  induction fuel with
  | zero => exact fun n => .refl c n
  | succ fuel ih =>
    intro n
    unfold timeOutMore
    split
    · exact .refl c n
    · split
      · exact (keeps_timeOutOldest c n _).trans (ih _)
      · exact .refl c n

theorem keeps_returnExpiry : Keeps c n (returnExpiry c n) := by
  unfold returnExpiry
  split
  · exact .refl c n
  · split
    · exact (keeps_timeOutOldest c n _).trans (keeps_timeOutMore c _ _)
    · exact .refl c n

/-! ## Neighbours and timers -/

theorem keeps_hearNeighbour (w : Neighbour) (info : BeaconInfo) : Keeps c n (hearNeighbour c w info n) := by
  refine (keeps_memb (n.memb.putRecord w ((n.memb.record w).hear c (n.memb.ring = .seeking) info))).trans ?_
  unfold hearNeighbour
  dsimp only
  split
  · exact keeps_clearHold c _ _
  · exact .refl c _

theorem keeps_livenessExpiry (w : Neighbour) : Keeps c n (livenessExpiry c w n) := by
  unfold livenessExpiry
  split
  · exact (keeps_memb _).trans (keeps_raise c _ _)
  · exact .refl c n

theorem keeps_seekExpiry : Keeps c n (seekExpiry c n) := by
  unfold seekExpiry
  split
  · exact (keeps_enterJoined c n false).trans ((keeps_memb _).trans (keeps_raiseAll c _ _))
  · exact .refl c n

theorem keeps_graceExpiry : Keeps c n (graceExpiry c n) := by
  unfold graceExpiry
  split
  · refine (keeps_memb { n.memb with graceTimer := none }).trans ?_
    dsimp only
    split
    · exact keeps_raise c _ _
    · exact .refl c _
  · exact .refl c n

theorem keeps_beaconExpiry : Keeps c n (beaconExpiry c n) := by
  unfold beaconExpiry
  split
  · exact keeps_sendBeacon c n
  · exact .refl c n

/-- A transmission that ends frees the link; the entry of a tracked frame takes its time (R17, R19). -/
theorem keeps_endTransmission : Keeps c n (endTransmission n) := by
  unfold endTransmission
  split
  · exact .refl c n
  · refine keeps_ring (fun h => sized_of_le (ho := ?_) (h := h))
    dsimp only
    split
    · simp
    · exact le_refl _

end Sys2Proof.Machine
end

section
/-! SUPPORT. The exit side of the Tracking Unit (R80 to R92): what publication and closing touch, the conservation
of the records (R103), and that the laws are kept. -/

namespace Sys2Proof.Machine

set_option Elab.async false

variable {c : Settings} {n m k : Node}

/-! ## Operations of the transmit side and the Tracking Unit -/

/-- A node goes over to one that differs in the Tracking Unit and, within its sizes, on the transmit side. -/
def Sends (n m : Node) : Prop :=
  ∃ r f t, m = { n with ring := r, flt := f, track := t } ∧ RepKept ⟨n.ring, n.flt⟩ ⟨r, f⟩

theorem Sends.refl (n : Node) : Sends n n := ⟨n.ring, n.flt, n.track, rfl, {}⟩

theorem Sends.trans (h : Sends n m) (g : Sends m k) : Sends n k := by
  obtain ⟨r, f, t, rfl, hk⟩ := h
  obtain ⟨r', f', t', rfl, hk'⟩ := g
  exact ⟨r', f', t', rfl, hk.trans hk'⟩

theorem sends_track (t : Tracking) : Sends n { n with track := t } := ⟨n.ring, n.flt, t, rfl, {}⟩

/-- Such an operation keeps the laws where it keeps those of the Tracking Unit. -/
theorem Sends.keeps (h : Sends n m) (hs : n.track.sized → m.track.sized)
    (ho : n.track.owes 0 → m.track.owes 0) : Keeps c n m := by
  obtain ⟨r, f, t, rfl, hk⟩ := h
  exact { ringSized := hk.sized, counters := hk.counters, trackSized := hs, conserved := ho }

theorem keeps_track {t : Tracking} (hs : n.track.sized → t.sized) (ho : n.track.owes 0 → t.owes 0) :
    Keeps c n { n with track := t } :=
  (sends_track t).keeps hs ho

variable (c n)

theorem sends_offer (o : OwnFrame) : Sends n (offer c o n) := ⟨_, _, n.track, rfl, repKept_offer _ o _⟩

theorem sends_settle : Sends n (settle c n) := ⟨_, _, n.track, rfl, repKept_settle _ _⟩

/-- A CORRECTABLE fault touches the transmit side only. -/
theorem sends_raise (code : FaultCode) (h : code.cls n.seq.stand = .correctable) : Sends n (raise c code n) := by
  rw [raise_eq_of_correctable c n code h]
  refine (sends_settle c n).trans (Sends.trans ?_ (sends_settle c _))
  have hcount : RepKept ⟨(settle c n).ring, (settle c n).flt⟩
      ⟨(settle c n).ring, (settle c n).flt.count (eventOf code n)⟩ :=
    { counters := fun h => (length_bumpAt _ _).trans h }
  exact ⟨_, _, n.track, rfl, hcount.trans (repKept_report _ _ _)⟩

/-! ## Publication (R89 to R92) -/

/-- A SEG or MARK offered counts a refusal at most. -/
theorem offerTracked_sends (o : OwnFrame) : Sends n (offerTracked c o n) ∧
    ∃ j, (offerTracked c o n).track =
      { n.track with counts := { n.track.counts with publishRefused := j } } := by
  unfold offerTracked
  dsimp only
  split
  · exact ⟨(sends_track _).trans (sends_offer c _ o), _, rfl⟩
  · exact ⟨sends_offer c _ o, _, rfl⟩

/-- The head that is published leaves the track and is counted; a refusal may be counted beside it. -/
theorem publishHead_sends (rem : ExitRecord → Nat) (onTime : Bool) {r : ExitRecord} {rest : List ExitRecord}
    (ht : n.track.exitTrack = r :: rest) : Sends n (publishHead c rem onTime n) ∧
    ∃ j, (publishHead c rem onTime n).track = { n.track with
      exitTrack := rest
      counts := { n.track.counts with
        published := satInc n.track.counts.published, publishRefused := j } } := by
  unfold publishHead
  rw [ht]
  dsimp only
  obtain ⟨hsend, j, hj⟩ := offerTracked_sends c { n with track := { n.track with
      exitTrack := rest
      counts := { n.track.counts with published := satInc n.track.counts.published } } }
    (segFrame c r (rem r))
  split
  · obtain ⟨hsend', j', hj'⟩ := offerTracked_sends c _ (markFrame c r.number)
    refine ⟨(sends_track _).trans (hsend.trans hsend'), j', ?_⟩
    rw [hj', hj]
  · exact ⟨(sends_track _).trans hsend, j, hj⟩

theorem publishHead_nil (rem : ExitRecord → Nat) (onTime : Bool) (ht : n.track.exitTrack = []) :
    publishHead c rem onTime n = n := by
  unfold publishHead
  rw [ht]

variable {c n}

/-- A record published goes from those held to those published (R103). -/
theorem owes_published {t : Tracking} {r : ExitRecord} {rest : List ExitRecord} {j i : Nat}
    (ht : t.exitTrack = r :: rest) (h : t.owes i) :
    ({ t with exitTrack := rest, counts := { t.counts with
        published := satInc t.counts.published, publishRefused := j } } : Tracking).owes i := by
  intro hc
  have hlt : t.counts.closed < 65535 := hc
  have hk := h hlt
  rw [ht, List.length_cons] at hk
  have hp : satInc t.counts.published = t.counts.published + 1 := satAdd_of_lt (by omega)
  simp only [hp]
  omega

theorem sized_published {t : Tracking} {r : ExitRecord} {rest : List ExitRecord} {k : TrackCounts}
    (ht : t.exitTrack = r :: rest) (h : t.sized) :
    ({ t with exitTrack := rest, counts := k } : Tracking).sized := by
  obtain ⟨hw, he, ha, hx⟩ := h
  rw [ht, List.length_cons] at he
  exact ⟨hw, Nat.le_of_succ_le he, ha, hx⟩

variable (c n)

/-- What the publication of the head makes of a node. -/
theorem publishHead_keeps (rem : ExitRecord → Nat) (onTime : Bool) :
    Sends n (publishHead c rem onTime n) ∧
    (∀ i, n.track.owes i → (publishHead c rem onTime n).track.owes i) ∧
    (n.track.sized → (publishHead c rem onTime n).track.sized) := by
  cases ht : n.track.exitTrack with
  | nil =>
    rw [publishHead_nil c n rem onTime ht]
    exact ⟨.refl n, fun _ => id, id⟩
  | cons r rest =>
    obtain ⟨hs, j, hj⟩ := publishHead_sends c n rem onTime ht
    rw [hj]
    exact ⟨hs, fun _ => owes_published ht, sized_published ht⟩

theorem publishDue_keeps (rem : ExitRecord → Nat) (fuel : Nat) : ∀ n,
    Sends n (publishDue c rem fuel n) ∧
    (∀ i, n.track.owes i → (publishDue c rem fuel n).track.owes i) ∧
    (n.track.sized → (publishDue c rem fuel n).track.sized) := by
  induction fuel with
  | zero => exact fun n => ⟨.refl n, fun _ => id, id⟩
  | succ fuel ih =>
    intro n
    unfold publishDue
    split
    · exact ⟨.refl n, fun _ => id, id⟩
    · split
      · obtain ⟨hs, ho, hz⟩ := publishHead_keeps c n rem true
        obtain ⟨hs', ho', hz'⟩ := ih (publishHead c rem true n)
        exact ⟨hs.trans hs', fun i => ho' i ∘ ho i, hz' ∘ hz⟩
      · exact ⟨.refl n, fun _ => id, id⟩

theorem keeps_publishOnCount : Keeps c n (publishOnCount c n) := by
  obtain ⟨hs, ho, hz⟩ := publishDue_keeps c (fun _ => c.config.publishLead) n.track.exitTrack.length n
  exact hs.keeps hz (ho 0)

theorem keeps_flushTrack (fuel : Nat) : ∀ n, Keeps c n (flushTrack c fuel n) := by
  induction fuel with
  | zero => exact fun n => .refl c n
  | succ fuel ih =>
    intro n
    obtain ⟨hs, ho, hz⟩ := publishHead_keeps c n (trueRemaining c n.meas.exitCount) false
    exact (hs.keeps hz (ho 0)).trans (ih _)

/-! ## Opening a segment (R80, R81, R88) -/

theorem length_takeWelds (ws : List WeldMark) (g : OpenSegment) :
    (takeWelds c ws g).1.length ≤ ws.length := by
  induction ws generalizing g with
  | nil => exact le_refl _
  | cons w ws ih =>
    unfold takeWelds
    split
    · exact (ih _).trans (Nat.le_succ _)
    · exact le_refl _

/-- The weld marks that a segment takes leave the Tracking Unit's queues and counts (R88). -/
theorem judgeWelds_keeps (t : Tracking) : (t.sized → (t.judgeWelds c).sized) ∧
    ∀ i, t.owes i → (t.judgeWelds c).owes i := by
  unfold Tracking.judgeWelds
  split
  · exact ⟨id, fun _ => id⟩
  · exact ⟨fun ⟨hw, he, ha, hx⟩ => ⟨(length_takeWelds c _ _).trans hw, he, ha, hx⟩, fun _ h => h⟩

theorem openSegment_keeps (index : Nat) (t : Tracking) : (t.sized → (t.openSegment c index).sized) ∧
    ∀ i, t.owes i → (t.openSegment c index).owes i := by
  obtain ⟨hs, ho⟩ := judgeWelds_keeps c { t with
    nextNumber := t.nextNumber + 1
    openSeg := some
      { number := t.nextNumber, index := index
        spanStart := t.origin + mm (index * c.config.segLength)
        coil := t.exitCoil, head := index = 0, weld := false, good := 0, sum := 0, suspect := 0 } }
  exact ⟨fun h => hs h, fun i h => ho i h⟩

/-! ## Closing a segment (R86, R87, R90) -/

/-- Room for one more record in the exit track (R90). -/
theorem makeRoom_keeps : Sends n (makeRoom c n) ∧
    (∀ i, n.track.owes i → (makeRoom c n).track.owes i) ∧
    (n.track.sized → (makeRoom c n).track.sized ∧ (makeRoom c n).track.exitTrack.length < 48) := by
  unfold makeRoom
  split
  next hfull =>
    obtain ⟨hs, ho, hz⟩ := publishHead_keeps c n (trueRemaining c n.meas.exitCount) false
    have hraise := sends_raise c (publishHead c (trueRemaining c n.meas.exitCount) false n) .exitTrackFull rfl
    rw [raise_track c _ .exitTrackFull rfl]
    refine ⟨hs.trans hraise, ho, fun h => ⟨hz h, ?_⟩⟩
    obtain ⟨_, hlen, _⟩ := h
    cases ht : n.track.exitTrack with
    | nil => rw [ht] at hfull; simp at hfull
    | cons r rest =>
      obtain ⟨_, j, hj⟩ := publishHead_sends c n (trueRemaining c n.meas.exitCount) false ht
      rw [hj]
      rw [ht, List.length_cons] at hlen
      exact hlen
  next hroom => exact ⟨.refl n, fun _ => id, fun h => ⟨h, not_le.mp hroom⟩⟩

/-- A record that joins the track pays what one closed segment owes it (R90, R103). -/
theorem joinTrack_keeps (x : ExitRecord) : Sends n (joinTrack c x n) ∧
    (∀ i, n.track.owes (i + 1) → (joinTrack c x n).track.owes i) ∧
    (n.track.sized → (joinTrack c x n).track.sized) := by
  obtain ⟨hs, ho, hz⟩ := makeRoom_keeps c n
  unfold joinTrack
  generalize makeRoom c n = m at hs ho hz
  have hjoin : Sends m { m with track := { m.track with exitTrack := m.track.exitTrack ++ [x] } } :=
    sends_track _
  have hpaid : ∀ i, n.track.owes (i + 1) →
      ({ m.track with exitTrack := m.track.exitTrack ++ [x] } : Tracking).owes i := by
    intro i h hc
    have := ho _ h hc
    simp only [List.length_append, List.length_cons, List.length_nil]
    omega
  have hfits : n.track.sized → ({ m.track with exitTrack := m.track.exitTrack ++ [x] } : Tracking).sized := by
    intro h
    obtain ⟨⟨hw, _, ha, hx⟩, hlen⟩ := hz h
    exact ⟨hw, by simpa using hlen, ha, hx⟩
  dsimp only
  split
  · obtain ⟨hs', ho', hz'⟩ := publishDue_keeps c (trueRemaining c m.meas.exitCount)
      (m.track.exitTrack ++ [x]).length { m with track := { m.track with exitTrack := m.track.exitTrack ++ [x] } }
    exact ⟨hs.trans (hjoin.trans hs'), fun i h => ho' i (hpaid i h), fun h => hz' (hfits h)⟩
  · exact ⟨hs.trans hjoin, hpaid, hfits⟩

/-- A segment that closes owes one record to the exit track. -/
theorem owes_closed {t : Tracking} {g : Option OpenSegment} {h : Half} (ho : t.owes 0) :
    ({ t with openSeg := g, lastClosed := h, counts := { t.counts with closed := satInc t.counts.closed } } :
      Tracking).owes 1 := by
  intro hc
  have hlt : t.counts.closed + 1 < 65535 := by
    simp only [satInc, satAdd] at hc
    omega
  have := ho (by omega)
  simp only [satInc, satAdd_of_lt hlt]
  omega

theorem keeps_closeSegment (tail : Bool) : Keeps c n (closeSegment c tail n) := by
  unfold closeSegment
  split
  next g id r _ _ =>
    obtain ⟨hs, ho, hz⟩ := joinTrack_keeps c { n with track := { n.track with
      openSeg := none
      lastClosed := g.number
      counts := { n.track.counts with closed := satInc n.track.counts.closed } } }
      (closeRecord c tail id r g)
    have hjoined : Keeps c n (joinTrack c (closeRecord c tail id r g) { n with track := { n.track with
        openSeg := none
        lastClosed := g.number
        counts := { n.track.counts with closed := satInc n.track.counts.closed } } }) :=
      ((sends_track _).trans hs).keeps (fun h => hz h) (fun h => ho 0 (owes_closed h))
    dsimp only
    split
    · exact hjoined.trans (keeps_monitorUpdate c _ _)
    · exact hjoined
  next => exact .refl c n

theorem keeps_closeAndOpen : Keeps c n (closeAndOpen c n) := by
  unfold closeAndOpen
  split
  · exact .refl c n
  next g _ =>
    obtain ⟨hs, ho⟩ := openSegment_keeps c (g.index + 1) (closeSegment c false n).track
    exact (keeps_closeSegment c n false).trans (keeps_track hs (ho 0))

theorem keeps_closeTimes (k : Nat) : ∀ n, Keeps c n (closeTimes c k n) := by
  induction k with
  | zero => exact fun n => .refl c n
  | succ k ih => exact fun n => (keeps_closeAndOpen c n).trans (ih _)

theorem keeps_closeUpTo (p : Pos) : Keeps c n (closeUpTo c p n) := by
  unfold closeUpTo
  split
  · exact .refl c n
  · exact keeps_closeTimes c _ n

theorem keeps_closeOnCount : Keeps c n (closeOnCount c n) := by
  unfold closeOnCount
  split
  · exact keeps_closeUpTo c n _
  · exact .refl c n

/-! ## Samples and runs -/

variable {c n}

/-- A count of R103 other than those of the conservation law, or the open segment, changes. -/
theorem keeps_trackCounts {t : Tracking} (hw : t.weldList = n.track.weldList := by rfl)
    (he : t.exitTrack = n.track.exitTrack := by rfl) (ha : t.arrival = n.track.arrival := by rfl)
    (hx : t.expected = n.track.expected := by rfl)
    (hc : t.counts.closed = n.track.counts.closed := by rfl)
    (hp : t.counts.published = n.track.counts.published := by rfl)
    (hd : t.counts.exitDiscarded = n.track.counts.exitDiscarded := by rfl) :
    Keeps c n { n with track := t } := by
  refine keeps_track (fun h => ?_) (fun h => ?_)
  · unfold Tracking.sized at h ⊢
    rw [hw, he, ha, hx]; exact h
  · unfold Tracking.owes at h ⊢
    rw [hc, hp, hd, he]; exact h

theorem keeps_meas {x : Meas} (h : n.meas.fifo.length ≤ 32 → x.fifo.length ≤ 32) :
    Keeps c n { n with meas := x } where
  fifo := h

variable (c n)

theorem keeps_addSample (x : Sample) : Keeps c n { n with track := addSample x n.track } := by
  unfold addSample
  split
  · exact .refl c n
  · split <;> exact keeps_trackCounts

theorem keeps_sortSample (x : Sample) : Keeps c n (sortSample c x n) := by
  unfold sortSample
  split
  · exact .refl c n
  · dsimp only
    split
    · exact keeps_trackCounts
    · exact (keeps_closeUpTo c n _).trans (keeps_addSample c _ x)

theorem keeps_takeSample : Keeps c n (takeSample c n) := by
  unfold takeSample
  split
  · refine (keeps_meas ?_).trans ((keeps_sortSample c _ _).trans (keeps_closeOnCount c _))
    intro h
    show (n.meas.fifo.drop 1).length ≤ 32
    rw [List.length_drop]
    omega
  · exact .refl c n

theorem keeps_endRun : Keeps c n (endRun c n) := by
  refine (keeps_closeSegment c n true).trans ((keeps_flushTrack c _ _).trans (keeps_track ?_ (fun h => h)))
  exact fun ⟨_, he, ha, hx⟩ => ⟨Nat.zero_le _, he, ha, hx⟩

theorem keeps_beginRun (p : Pos) : Keeps c n { n with track := n.track.beginRun c p } := by
  obtain ⟨hs, ho⟩ := openSegment_keeps c 0
    { n.track with running := true, origin := p, weldList := [], exitCoil := n.track.entryCoil }
  refine keeps_track (fun h => hs ?_) (fun h => ho 0 h)
  obtain ⟨_, he, ha, hx⟩ := h
  exact ⟨Nat.zero_le _, he, ha, hx⟩

end Sys2Proof.Machine
end

section
/-! SUPPORT. The Stand Sequencer's entries and the entry side of the Tracking Unit (spec 05, 06, 07) keep the
laws. -/

namespace Sys2Proof.Machine

set_option Elab.async false

variable {c : Settings} {n : Node}

/-! ## A stand state entered -/

/-- A stand state before a trip entered from another; no slot is PENDING outside ROLLING (R123). -/
theorem keepsRest_stand {q : Sequencer} (hs : n.seq.stand ≠ .starting) (hn : n.seq.stand.stopped = false)
    (hq : q.stand.stopped = false) (hr : n.seq.stand ≠ .rolling ∨ q.stand = .rolling) :
    KeepsRest c n { n with seq := q } where
  starting := fun h => absurd h hs
  origin := fun _ _ ho => by
    rw [originLaw_iff] at ho ⊢
    exact ⟨ho.1, fun _ => ho.2 hn⟩
  slots := fun h => by
    rw [slotLaw_iff] at h ⊢
    refine ⟨h.1, fun hne => ?_⟩
    obtain hr | hr := hr
    · exact h.2 hr
    · exact absurd hr hne
  retract := fun _ _ hstop => absurd (hq.symm.trans hstop) (by decide)

/-- One strip state entered from another. -/
theorem keeps_standStrip {q : Sequencer} (hn : n.seq.stand.strip = true) (hq : q.stand.strip = true)
    (hr : n.seq.stand ≠ .rolling ∨ q.stand = .rolling) : Keeps c n { n with seq := q } where
  toKeepsRest := keepsRest_stand (by rintro e; rw [e] at hn; cases hn)
    (by cases h : n.seq.stand <;> simp_all [StandState.strip, StandState.stopped])
    (by cases h : q.stand <;> simp_all [StandState.strip, StandState.stopped]) hr
  gap := fun ⟨hvalid, hready, hlimits⟩ =>
    ⟨hvalid, fun _ => hready (.inr (.inr hn)), fun hl _ => hlimits hl hn⟩

/-- A Schedule Store with its slots as they stood. -/
theorem keeps_sched {q : SchedStore} (h : q.slots = n.sched.slots := by rfl) : Keeps c n { n with sched := q } where
  slots := fun hl => by
    rw [slotLaw_iff] at hl ⊢
    exact h ▸ hl
  gap := fun ⟨hvalid, hready, hlimits⟩ => by
    have ha : q.active = n.sched.active := by rw [active_eq, active_eq, h]
    refine ⟨fun x hx => hvalid x (h ▸ hx), fun hst => ?_, fun hl hs id r hr => ?_⟩
    · have := hready hst
      exact ⟨(congrArg Option.isSome ha).trans this.1, this.2⟩
    · exact hlimits hl hs id r (ha.symm.trans hr)

/-- A PENDING slot disarmed (R130). -/
theorem keeps_disarm : Keeps c n { n with sched := n.sched.disarm } where
  slots := slotLaw_disarm rfl
  gap := fun ⟨hvalid, hready, hlimits⟩ => by
    have ha : n.sched.disarm.active = n.sched.active := active_mapFour disarm_asActive _
    refine ⟨slotsValid_disarm hvalid, fun hst => ?_, fun hl hs id r hr => ?_⟩
    · have := hready hst
      exact ⟨(congrArg Option.isSome ha).trans this.1, this.2⟩
    · exact hlimits hl hs id r (ha.symm.trans hr)

/-! ## Entry to QUIET (R110, R172) -/

/-- What entry to QUIET leaves of the Gap Controller: the cache and the queue, and no head waiting (R110). -/
theorem enterQuiet_kept (c : Settings) (fromTripped servoFlt : Bool) (g : GapControl) :
    (g.enterQuiet c fromTripped servoFlt).cache = g.cache ∧
    (g.enterQuiet c fromTripped servoFlt).queue = g.queue ∧
    (g.enterQuiet c fromTripped servoFlt).waiting = none := by
  unfold GapControl.enterQuiet
  dsimp only
  rw [refer_cache, refer_queue, refer_waiting]
  split <;> exact ⟨rfl, rfl, rfl⟩

/-- In a stand before a trip the law leaves nothing recorded (R165). -/
theorem blank_of_unstopped (hs : n.seq.stand.stopped = false) (ho : (onNode c n).originLaw) : n.trip.blank :=
  ((originLaw_iff _).mp ho).2 hs

/-- Entry to QUIET, from a stand in which no slot is PENDING and with nothing recorded. -/
theorem keeps_enterQuietQuietly (hs : n.seq.stand ≠ .starting) (hr : n.seq.stand ≠ .rolling)
    (hb : (onNode c n).originLaw → n.trip.blank) : Keeps c n (enterQuietQuietly c n) := by
  obtain ⟨hcache, hqueue, hwait⟩ :=
    enterQuiet_kept c (n.seq.stand = .tripped) n.pins.servoFlt n.gap
  exact {
    starting := fun h => absurd h hs
    fifo := fun _ => Nat.zero_le _
    trackSized := sized_clearArrival
    queue := fun h => (congrArg List.length hqueue).trans_le h
    origin := fun _ _ ho => (originLaw_iff _).mpr ⟨((originLaw_iff _).mp ho).1, fun _ => hb ho⟩
    slots := fun h => by
      rw [slotLaw_iff] at h ⊢
      exact ⟨h.1, fun _ => h.2 hr⟩
    retract := fun _ _ hstop => nomatch (hstop : false = true)
    cache := fun _ => fillLaw_congr hcache hqueue (fun w h _ => nomatch hwait.symm.trans h)
    gap := fun ⟨hvalid, _⟩ => gapLaw_of_noStrip hvalid (.inr (.inl rfl)) }

theorem keeps_enterQuiet (hs : n.seq.stand ≠ .starting) (hr : n.seq.stand ≠ .rolling)
    (hb : (onNode c n).originLaw → n.trip.blank) : Keeps c n (enterQuiet c n) := by
  unfold enterQuiet
  split
  · exact (keeps_enterQuietQuietly hs hr hb).trans (keeps_raise c _ _)
  · exact keeps_enterQuietQuietly hs hr hb

/-- The conditions of leaving TRIPPED (R172). -/
theorem mayLeaveTripped_iff : n.mayLeaveTripped = true ↔
    n.seq.stand = .tripped ∧ n.trip.blank ∧ n.pins.loopClosed = true ∧ n.gap.supervision = .retracted := by
  unfold Node.mayLeaveTripped TripUnit.blank
  simp only [Bool.and_eq_true, decide_eq_true_eq, Option.isNone_iff_eq_none]
  tauto

variable (c n)

theorem keeps_judgeTripExit : Keeps c n (judgeTripExit c n) := by
  unfold judgeTripExit
  split
  next h =>
    obtain ⟨hst, hblank, _⟩ := mayLeaveTripped_iff.mp h
    exact keeps_enterQuiet (by rw [hst]; decide) (by rw [hst]; decide) (fun _ => hblank)
  next => exact .refl c n

/-! ## PRESET and READY (R108, R109) -/

variable {c n}

theorem keeps_enterPreset (hs : n.seq.stand = .quiet) (ha : n.sched.active.isSome = true) :
    Keeps c n (enterPreset c n) where
  toKeepsRest :=
    { starting := fun h => by rw [hs] at h; cases h
      origin := fun _ _ ho => by
        rw [originLaw_iff] at ho ⊢
        exact ⟨ho.1, fun _ => ho.2 (by rw [show (onNode c n).node.seq.stand = .quiet from hs]; rfl)⟩
      slots := fun h => by
        rw [slotLaw_iff] at h ⊢
        exact ⟨h.1, fun _ => h.2 (by rw [show (onNode c n).node.seq.stand = .quiet from hs]; decide)⟩
      retract := fun _ _ hstop => nomatch (hstop : false = true)
      cache := fun _ => fillLaw_congr rfl rfl (fun _ h _ => h) }
  gap := fun ⟨hvalid, _, _⟩ => ⟨hvalid, fun _ => ⟨ha, rfl⟩, fun _ h => nomatch (h : false = true)⟩

theorem keeps_enterReady (hs : n.seq.stand = .preset) : Keeps c n (enterReady n) where
  toKeepsRest := keepsRest_stand (by rw [hs]; decide) (by rw [hs]; rfl) rfl (.inl (by rw [hs]; decide))
  gap := fun ⟨hvalid, hready, _⟩ => ⟨hvalid, fun _ => hready (.inl hs), fun _ h => nomatch (h : false = true)⟩

/-! ## The strip states (R112 to R114) -/

/-- Entry to THREADING: the reassembly from the thread gap brings the reference within the limits (R112). -/
theorem keeps_beginThreading (hs : n.seq.stand = .ready) : Keeps c n (beginThreading c n) := by
  have hstand : KeepsRest c n { n with seq := { n.seq with stand := .threading } } :=
    keepsRest_stand (by rw [hs]; decide) (by rw [hs]; rfl) rfl (.inl (by rw [hs]; decide))
  have hrun := keeps_beginRun c { n with seq := { n.seq with stand := .threading } } n.meas.exitCount
  have hmeas : Keeps c _ { n with
      seq := { n.seq with stand := .threading }
      track := n.track.beginRun c n.meas.exitCount
      meas := { n.meas with exitPeak := n.meas.exitCount } } :=
    keeps_meas (n := { n with
      seq := { n.seq with stand := .threading }
      track := n.track.beginRun c n.meas.exitCount }) (fun h => h)
  have hbase := keeps_setBase c { n with
      seq := { n.seq with stand := .threading }
      track := n.track.beginRun c n.meas.exitCount
      meas := { n.meas with exitPeak := n.meas.exitCount } } (Node.threadGap { n with
      seq := { n.seq with stand := .threading }
      track := n.track.beginRun c n.meas.exitCount
      meas := { n.meas with exitPeak := n.meas.exitCount } }) rfl
  have hrest := hstand.trans (hrun.trans (hmeas.trans hbase)).toKeepsRest
  refine Keeps.trans (m := reassemble c _) ?_ (keeps_settle c _)
  exact { toKeepsRest := hrest.trans (keepsRest_reassemble c _)
          gap := fun ⟨hvalid, hready, _⟩ =>
            gapLaw_reassemble hvalid (fun _ => ⟨(hready (.inr (.inl hs))).1, rfl⟩) }

theorem keeps_enterThreading (hs : n.seq.stand = .ready) : Keeps c n (enterThreading c n) :=
  (keeps_beginThreading hs).trans (keeps_raiseAll c _ _)

theorem keeps_beginRolling (hs : n.seq.stand = .threading) : Keeps c n (beginRolling c n) :=
  (keeps_standStrip (q := { n.seq with stand := .rolling }) (by rw [hs]; rfl) rfl (.inr rfl)).trans
    ((keeps_trackCounts (t := { n.track with baseline := none })).trans
      ((keeps_gapTerms (g := { n.gap with monitor := 0 })).trans
        ((keeps_setBase c _ _ rfl).trans (keeps_reassembleNow c _))))

theorem keeps_enterRolling (hs : n.seq.stand = .threading) : Keeps c n (enterRolling c n) := by
  refine (keeps_beginRolling hs).trans ?_
  unfold enterRolling
  dsimp only
  split
  · exact .refl c _
  · exact keeps_raise c _ _

theorem keeps_enterTailing (hs : n.seq.stand = .rolling ∨ n.seq.stand = .threading) :
    Keeps c n (enterTailing c n) := by
  have hdisarmed : Keeps c n { n with sched := n.sched.disarm } := keeps_disarm
  have hstand : Keeps c { n with sched := n.sched.disarm }
      { n with seq := { n.seq with stand := .tailing }, sched := n.sched.disarm } := by
    have hstrip : n.seq.stand.strip = true := by obtain h | h := hs <;> rw [h] <;> rfl
    have hunstopped : n.seq.stand.stopped = false := by obtain h | h := hs <;> rw [h] <;> rfl
    exact
      { starting := fun h => by obtain e | e := hs <;> rw [show n.seq.stand = _ from h] at e <;> cases e
        origin := fun _ _ ho => by
          rw [originLaw_iff] at ho ⊢
          exact ⟨ho.1, fun _ => ho.2 hunstopped⟩
        slots := fun h => by
          rw [slotLaw_iff] at h ⊢
          exact ⟨h.1, fun _ => slotCount_none disarm_isPending⟩
        retract := fun _ _ hstop => nomatch (hstop : false = true)
        gap := fun ⟨hvalid, hready, hlimits⟩ =>
          ⟨hvalid, fun _ => hready (.inr (.inr hstrip)), fun hl _ => hlimits hl hstrip⟩ }
  exact hdisarmed.trans (hstand.trans ((keeps_setBase c _ _ rfl).trans (keeps_reassembleNow c _)))

variable (c n)

theorem keeps_loadOnEvent : Keeps c n (loadOnEvent c n) := by
  unfold loadOnEvent
  split
  next hs => exact keeps_enterThreading hs
  · exact keeps_raise c n _
  · exact keeps_raise c n _
  · exact .refl c n

/-! ## The end of a run (R92, R115) -/

/-- What a closing segment leaves: all but the Tracking Unit, the Gap Controller and the transmit side. -/
theorem closeSegment_rest (tail : Bool) :
    ∃ r f t g, closeSegment c tail n = { n with ring := r, flt := f, track := t, gap := g } := by
  unfold closeSegment
  split
  next g id r _ _ =>
    dsimp only
    obtain ⟨⟨r', f, t, h, _⟩, _⟩ := joinTrack_keeps c { n with track := { n.track with
      openSeg := none
      lastClosed := g.number
      counts := { n.track.counts with closed := satInc n.track.counts.closed } } } (closeRecord c tail id r g)
    rw [h]
    split
    · obtain ⟨g', r'', f', h'⟩ := monitorUpdate_rest c { n with ring := r', flt := f, track := t }
        (closeRecord c tail id r g).deviation
      exact ⟨r'', f', t, g', h'⟩
    · exact ⟨r', f, t, n.gap, rfl⟩
  next => exact ⟨n.ring, n.flt, n.track, n.gap, rfl⟩

theorem flushTrack_sends (fuel : Nat) : ∀ n, Sends n (flushTrack c fuel n) := by
  induction fuel with
  | zero => exact Sends.refl
  | succ fuel ih => exact fun n => (publishHead_keeps c n _ false).1.trans (ih _)

theorem endRun_rest : ∃ r f t g, endRun c n = { n with ring := r, flt := f, track := t, gap := g } := by
  obtain ⟨r, f, t, g, h⟩ := closeSegment_rest c n true
  unfold endRun
  rw [h]
  dsimp only
  obtain ⟨r', f', t', h', _⟩ := flushTrack_sends c t.exitTrack.length
    { n with ring := r, flt := f, track := t, gap := g }
  rw [h']
  exact ⟨r', f', _, g, rfl⟩

theorem endRun_seq : (endRun c n).seq = n.seq := by
  obtain ⟨r, f, t, g, h⟩ := endRun_rest c n
  rw [h]

theorem keeps_loadOffEvent : Keeps c n (loadOffEvent c n) := by
  unfold loadOffEvent
  split
  next hs =>
    have hst : (settle c (endRun c n)).seq.stand = .tailing := by rw [settle_seq, endRun_seq]; exact hs
    exact (keeps_endRun c n).trans ((keeps_settle c _).trans (keeps_enterQuiet (by rw [hst]; decide)
      (by rw [hst]; decide) (blank_of_unstopped (by rw [hst]; rfl))))
  · exact keeps_raise c n _
  · exact keeps_raise c n _
  · exact .refl c n

theorem keeps_tailHanded : Keeps c n (tailHanded c n) := by
  unfold tailHanded
  split
  next hs => exact keeps_enterTailing (.inl hs)
  next hs => exact keeps_enterTailing (.inr hs)
  · exact keeps_seq
  · exact keeps_seq
  · exact .refl c n

theorem keeps_sinkBeacon (info : BeaconInfo) : Keeps c n (sinkBeacon c info n) := by
  unfold sinkBeacon
  split
  next h =>
    simp only [Bool.and_eq_true, decide_eq_true_eq] at h
    exact keeps_enterRolling h.1.1
  next => exact .refl c n

/-! ## Coil change (R132, R133) -/

/-- A flying change makes the PENDING schedule ACTIVE (R133). -/
theorem active_fly (h : n.sched.pendingSlot.isSome = true) :
    ({ n.sched with slots := mapFour Slot.fly n.sched.slots } : SchedStore).active.isSome = true := by
  obtain ⟨x, hx, hp⟩ := List.findSome?_isSome_iff.mp h
  obtain ⟨k, rfl⟩ := mem_listFour.mp hx
  refine active_isSome_of_slot (mem_listFour.mpr ⟨k, rfl⟩) ?_
  rw [getFour_mapFour, ← Slot.isActive_eq, fly_isActive]
  cases hs : getFour n.sched.slots k <;> simp_all [Slot.isPending]

theorem keeps_flyingChange (hs : n.seq.stand = .rolling) (hp : n.sched.pendingSlot.isSome = true) :
    Keeps c n (flyingChange c n) := by
  have hunstopped : n.seq.stand.stopped = false := by rw [hs]; rfl
  have hfly : KeepsRest c n { n with
      sched := { n.sched with
        slots := mapFour Slot.fly n.sched.slots, flyingChanges := satInc n.sched.flyingChanges }
      gap := { n.gap with ff := 0, monitor := 0 } } :=
    { slots := fun h => by
        rw [slotLaw_iff] at h ⊢
        exact ⟨slotsOnce_fly h.1, fun hne => absurd hs hne⟩
      cache := fun _ => fillLaw_congr rfl rfl (fun _ h _ => h) }
  have hrest := hfly.trans (keeps_setBase c _ (Node.rollGap { n with
      sched := { n.sched with
        slots := mapFour Slot.fly n.sched.slots, flyingChanges := satInc n.sched.flyingChanges }
      gap := { n.gap with ff := 0, monitor := 0 } }) (by exact hunstopped)).toKeepsRest
  refine Keeps.trans (m := reassemble c _) ?_ (keeps_settle c _)
  exact { toKeepsRest := hrest.trans (keepsRest_reassemble c _)
          gap := fun ⟨hvalid, _, _⟩ => gapLaw_reassemble
            (slotsValid_mapFour (fun x r hr => by simpa using hr) hvalid) (fun _ => ⟨active_fly n hp, rfl⟩) }

theorem keeps_flyIfArmed : Keeps c n (flyIfArmed c n) := by
  unfold flyIfArmed
  split
  next h =>
    simp only [Bool.and_eq_true, decide_eq_true_eq] at h
    exact keeps_flyingChange c n h.1 h.2
  next => exact .refl c n

theorem keeps_coilChange (number : Half) : Keeps c n (coilChange c number n) := by
  have hrest : ∀ m, Keeps c m { m with
      dir := { m.dir with changed := ChangedFlags.clear }
      flt := m.flt.resetBudget
      sched := { m.sched with
        profile := some { weld := number, id := m.sched.activeId, nextEntry := 1 }
        coilChanges := satInc m.sched.coilChanges }
      gap := { m.gap with profileTrim := 0 } } :=
    fun m => { cache := fun _ => fillLaw_congr rfl rfl (fun _ h _ => h) }
  exact (keeps_flyIfArmed c n).trans ((hrest _).trans (keeps_reassembleUnheld c _))

theorem keeps_recordWeld (coil : Half) : Keeps c n (recordWeld c coil n) := by
  unfold recordWeld
  split
  · exact .refl c n
  · split
    next hroom =>
      obtain ⟨hs, ho⟩ := judgeWelds_keeps c
        { n.track with weldList := n.track.weldList ++ [⟨n.meas.exitCount, coil⟩] }
      refine keeps_track (fun h => hs ?_) (fun h => ho 0 h)
      obtain ⟨_, he, ha, hx⟩ := h
      exact ⟨by simpa using hroom, he, ha, hx⟩
    next => exact keeps_trackCounts

/-! ## Application (R96, R97, R140, R141) -/

/-- The head leaves the arrival queue. -/
theorem keeps_dropArrival : Keeps c n { n with track := { n.track with
    arrival := n.track.arrival.drop 1, headWaiting := false } } := by
  refine keeps_track (fun ⟨hw, he, ha, hx⟩ => ⟨hw, he, ?_, fun hn => ?_⟩) (fun h => h)
  · show (n.track.arrival.drop 1).length ≤ 16
    rw [List.length_drop]; omega
  · show n.track.arrival.drop 1 = []
    rw [hx hn]; rfl

theorem keeps_accept (r : ArrivalRecord) (ff : Int) : Keeps c n (accept c r ff n) := by
  have hsched : Keeps c n { n with sched := (n.sched.profileStep r.number).1 } :=
    keeps_sched (by rw [profileStep_rest])
  have hgap : Keeps c { n with sched := (n.sched.profileStep r.number).1 } { n with
      sched := (n.sched.profileStep r.number).1
      gap := { n.gap with ff := ff, waiting := none, lastApplied := some (r.number, r.scheduleId)
                          profileTrim := (n.sched.profileStep r.number).2.getD n.gap.profileTrim } } :=
    keeps_gapTerms (n := { n with sched := (n.sched.profileStep r.number).1 }) (hw := fun _ h _ => nomatch h)
  refine hsched.trans (hgap.trans ((keeps_dropArrival c _).trans ?_))
  unfold accept
  dsimp only
  split
  · exact keeps_reassembleUnheld c _
  · exact .refl c _

/-- A head deferred for a fill of a tag that is not in the cache (R141). -/
theorem keeps_deferHead {tag : CoefTag} (hc : n.gap.cached tag = none) : Keeps c n (deferHead tag n) := by
  refine Keeps.trans (m := { n with track := { n.track with headWaiting := true } }) keeps_trackCounts ?_
  unfold deferHead
  dsimp only
  split
  · exact keeps_gapTerms (n := { n with track := { n.track with headWaiting := true } })
      (hw := fun w h hk => by cases h; cases hk)
  next hf =>
    split
    next hr =>
      have hr' := room_iff.mp hr
      refine keeps_gap (n := { n with track := { n.track with headWaiting := true } }) rfl rfl
        (fun _ => length_enqueue _ hr') (fun _ hg => ?_)
      exact fillLaw_congr (g := n.gap.enqueue (.fill tag)) rfl rfl (fun w h hk => by cases h; cases hk)
        (fillLaw_enqueue_fill hc hf hr' hg)
    next hr =>
      refine keeps_gap (n := { n with track := { n.track with headWaiting := true } }) rfl rfl
        (fun h => h) (fun _ hg => ?_)
      obtain ⟨hways, hnodup, hcached, _⟩ := hg
      refine ⟨hways, hnodup, hcached, fun _ w hw _ => ?_⟩
      cases hw
      rw [room_iff, not_lt] at hr
      rw [filling_iff] at hf
      exact ⟨hr, hf, hc⟩

theorem keeps_handOver (r : ArrivalRecord) : Keeps c n (handOver c r n) := by
  unfold handOver
  split
  · exact keeps_accept c n r _
  · exact keeps_accept c n r _
  · have hlook := keeps_lookup c n n.presentTag
    split
    next g k heq =>
      rw [heq] at hlook
      exact hlook.trans (keeps_accept c _ r _)
    next g heq =>
      obtain ⟨hnone, hcache⟩ := cached_of_lookup_none (g := n.gap) (t := n.presentTag) (by rw [heq])
      rw [heq] at hlook hcache
      exact hlook.trans (keeps_deferHead c _ ((cached_congr hcache).trans hnone))

theorem keeps_handOverAgain (installed : Option CoefRecord) (r : ArrivalRecord) :
    Keeps c n (handOverAgain c installed r n) := by
  unfold handOverAgain
  split
  · exact keeps_accept c n r _
  · exact keeps_accept c n r _
  · split
    · exact keeps_accept c n r _
    · exact (keeps_raise c n _).trans (keeps_accept c _ r _)

theorem keeps_noteLate : Keeps c n (noteLate c n) := by
  unfold noteLate
  split
  · exact (keeps_trackCounts).trans (keeps_raise c _ _)
  · exact .refl c n

theorem keeps_handWeld (r : ArrivalRecord) : Keeps c n (handWeld c r n) := by
  unfold handWeld
  split
  · exact (keeps_coilChange c n _).trans (keeps_recordWeld c _ _)
  · exact .refl c n

theorem keeps_handTail (r : ArrivalRecord) : Keeps c n (handTail c r n) := by
  unfold handTail
  split
  · exact keeps_tailHanded c n
  · exact .refl c n

theorem keeps_applyRecord (r : ArrivalRecord) : Keeps c n (applyRecord c r n) :=
  (keeps_noteLate c n).trans (Keeps.trans (m := noteApplied r (noteLate c n)) keeps_trackCounts
    ((keeps_handWeld c _ r).trans ((keeps_handOver c _ r).trans (keeps_handTail c _ r))))

theorem keeps_applyDue (fuel : Nat) : ∀ n, Keeps c n (applyDue c fuel n) := by
  induction fuel with
  | zero => exact fun n => .refl c n
  | succ fuel ih =>
    intro n
    unfold applyDue
    split
    · exact .refl c n
    · split
      · exact (keeps_applyRecord c n _).trans (ih _)
      · exact .refl c n

theorem keeps_applyAll : Keeps c n (applyAll c n) := keeps_applyDue c _ n

theorem keeps_fillEnded (tag : CoefTag) (installed : Option CoefRecord) :
    Keeps c n (fillEnded c tag installed n) := by
  unfold fillEnded
  split
  · split
    · exact (keeps_handOverAgain c n _ _).trans (keeps_applyAll c _)
    · exact .refl c n
  · exact .refl c n

/-! ## Reception (R93 to R99) -/

theorem keeps_acceptSeg (p : SegPayload) (h : n.track.sized → n.track.arrival.length < 16) :
    Keeps c n (acceptSeg c p n) := by
  have hjoin : Keeps c n (joinArrival c p n) :=
    keeps_track (fun hs => by
      have hroom := h hs
      obtain ⟨hw, he, _, _⟩ := hs
      exact ⟨hw, he, by simpa using hroom, fun hx => nomatch hx⟩) (fun h => h)
  unfold acceptSeg
  split
  · exact hjoin.trans (keeps_applyAll c _)
  · exact hjoin

theorem keeps_clearForHead : Keeps c n (clearForHead n) := by
  have htrack : Keeps c n { n with track := { n.track with
      arrival := [], headWaiting := false
      counts := { n.track.counts with
        arrivalDiscarded := satAdd n.track.counts.arrivalDiscarded n.track.arrival.length } } } :=
    keeps_track (fun ⟨hw, he, _, _⟩ => ⟨hw, he, Nat.zero_le _, fun _ => rfl⟩) (fun h => h)
  exact htrack.trans (keeps_gapTerms (g := { n.gap with waiting := none }) (hw := fun _ h _ => nomatch h))

theorem keeps_noteGap (d : Nat) : Keeps c n (noteGap c d n) := (keeps_trackCounts).trans (keeps_raise c _ _)

theorem noteGap_arrival (d : Nat) : (noteGap c d n).track.arrival = n.track.arrival := by
  unfold noteGap
  rw [raise_track c _ .trackGap rfl]

theorem keeps_sequenceCheck (p : SegPayload) : Keeps c n (sequenceCheck c p n) := by
  unfold sequenceCheck
  split
  · exact (keeps_clearForHead c n).trans (keeps_acceptSeg c _ p (fun _ => Nat.zero_lt_succ _))
  · split
    next hx =>
      refine keeps_acceptSeg c n p (fun hs => ?_)
      obtain ⟨_, _, _, hempty⟩ := hs
      rw [hempty hx]
      decide
    next e hx =>
      dsimp only
      split
      · exact keeps_trackCounts
      · split
        · exact keeps_raise c n _
        next hroom =>
          have hroom' : n.track.arrival.length < 16 := not_le.mp hroom
          split
          · exact keeps_acceptSeg c n p (fun _ => hroom')
          · exact (keeps_noteGap c n _).trans
              (keeps_acceptSeg c _ p (fun _ => by rw [noteGap_arrival]; exact hroom'))

theorem keeps_noteForeign : Keeps c n (noteForeign n) := keeps_trackCounts

theorem keeps_receiveSeg (source : Byte) (p : SegPayload) : Keeps c n (receiveSeg c source p n) := by
  unfold receiveSeg
  split
  · exact keeps_noteForeign c n
  · split
    · exact (keeps_trackCounts).trans (keeps_sequenceCheck c _ p)
    · exact keeps_trackCounts

theorem keeps_takeBaseline (p : MarkPayload) : Keeps c n (takeBaseline p n) := keeps_trackCounts

theorem keeps_compareMark (p : MarkPayload) (count : Pos) : Keeps c n (compareMark c p count n) := by
  have hmark : Keeps c n { takeBaseline p n with track := { (takeBaseline p n).track with
      comparison := some (markAdvance n count, markAdvance n count - expectedLength p) } } :=
    keeps_trackCounts
  unfold compareMark
  dsimp only
  split
  · exact hmark.trans (keeps_raise c _ _)
  · exact hmark

theorem keeps_cobbleCheck (p : MarkPayload) : Keeps c n (cobbleCheck c p n) := by
  unfold cobbleCheck
  split
  · exact keeps_takeBaseline c n p
  · split
    · exact keeps_compareMark c n p _
    · exact (keeps_raise c n _).trans (keeps_takeBaseline c _ p)

theorem keeps_receiveMark (source : Byte) (p : MarkPayload) : Keeps c n (receiveMark c source p n) := by
  unfold receiveMark
  split
  · exact keeps_noteForeign c n
  · refine Keeps.trans (m := { n with track := { n.track with counts := { n.track.counts with
      marksReceived := satInc n.track.counts.marksReceived } } }) keeps_trackCounts ?_
    dsimp only
    split
    · exact keeps_cobbleCheck c _ p
    · exact .refl c _

end Sys2Proof.Machine
end

section
/-! SUPPORT. The Object Directory and its owners, the Parameter Port, the loading of schedules, the Measurement
Ports and the Trip Unit's rows keep the laws. -/

namespace Sys2Proof.Machine

set_option Elab.async false

variable {c : Settings} {n : Node}

/-! ## Schedule slots -/

/-- Slots that change within their law, with the ACTIVE schedule as it stood. -/
theorem keeps_slots {v : Four Slot} (hlaw : SlotsOnce n.sched.slots → SlotsOnce v)
    (hp : (n.seq.stand ≠ .rolling → slotCount Slot.isPending n.sched.slots = 0) →
      n.seq.stand ≠ .rolling → slotCount Slot.isPending v = 0)
    (hv : SlotsValid n.sched.slots → SlotsValid v)
    (ha : ({ n.sched with slots := v } : SchedStore).active = n.sched.active) :
    Keeps c n { n with sched := { n.sched with slots := v } } where
  slots := fun h => by
    rw [slotLaw_iff] at h ⊢
    exact ⟨hlaw h.1, hp h.2⟩
  gap := fun ⟨hvalid, hready, hlimits⟩ => by
    refine ⟨hv hvalid, fun hst => ?_, fun hl hs id r hr => ?_⟩
    · have := hready hst
      exact ⟨(congrArg Option.isSome ha).trans this.1, this.2⟩
    · exact hlimits hl hs id r (ha.symm.trans hr)

/-- A slot that is neither ACTIVE nor PENDING takes another such value. -/
theorem keeps_putSlot {k : Fin 4} {x : Slot} (hold : (getFour n.sched.slots k).asActive = none)
    (hpend : (getFour n.sched.slots k).isPending = false) (hxa : x.asActive = none)
    (hxp : x.isPending = false) (hv : ∀ r, x.record = some r → r.valid = true)
    (hid : ∀ i, x.id = some i → (getFour n.sched.slots k).id = some i ∨
      slotCount (fun y => y.id = some i) n.sched.slots = 0) : Keeps c n (putSlot k x n) :=
  keeps_slots (slotsOnce_setFour hold hpend hxa hxp hid)
    (fun h hs => (slotCount_setFour_eq (by rw [hpend, hxp])).trans (h hs)) (slotsValid_setFour hv)
    (active_setFour (hxa.trans hold.symm))

/-- A slot that is LOADING takes a value with the same id or none. -/
theorem keeps_putLoading {k : Fin 4} {x : Slot} {l : Loading} (hk : getFour n.sched.slots k = .loading l)
    (hxa : x.asActive = none) (hxp : x.isPending = false) (hv : ∀ r, x.record = some r → r.valid = true)
    (hid : ∀ i, x.id = some i → i = l.id) : Keeps c n (putSlot k x n) :=
  keeps_putSlot (by rw [hk]; rfl) (by rw [hk]; rfl) hxa hxp hv
    (fun i hi => .inl (by rw [hk, hid i hi]; rfl))

/-- A load that ends leaves its slot EMPTY (R126 to R128). -/
theorem keeps_emptyLoading {k : Fin 4} {l : Loading} (hk : getFour n.sched.slots k = .loading l) :
    Keeps c n (putSlot k .empty n) :=
  keeps_putLoading hk rfl rfl (fun _ h => nomatch h) (fun _ h => nomatch h)

/-- An EMPTY slot begins LOADING an id that no slot holds (R125). -/
theorem keeps_beginLoading {k : Fin 4} {id : Nat} {source : Byte} {declared : Nat}
    (hk : getFour n.sched.slots k = .empty) (hid : n.sched.holdsId id = false) :
    Keeps c n (putSlot k (freshLoad id source declared) n) :=
  keeps_putSlot (by rw [hk]; rfl) (by rw [hk]; rfl) rfl rfl (fun _ h => nomatch h)
    (fun i hi => .inr (by cases hi; exact slotCount_id_zero hid))

theorem keeps_activate (id : Nat) (hs : n.seq.stand = .quiet) : Keeps c n { n with sched := { n.sched with
    slots := mapFour (Slot.activate id) n.sched.slots } } where
  slots := fun h => by
    rw [slotLaw_iff] at h ⊢
    exact ⟨slotsOnce_activate id h.1, fun hne => (slotCount_eq_map (activate_isPending · id)).trans (h.2 hne)⟩
  gap := fun ⟨hvalid, _⟩ => gapLaw_of_noStrip
    (slotsValid_mapFour (fun x r hr => (activate_record x id).symm.trans hr) hvalid) (.inr (.inl hs))

theorem keeps_free (id : Nat) : Keeps c n { n with sched := { n.sched with
    slots := mapFour (Slot.free id) n.sched.slots } } :=
  keeps_slots
    (slotsOnce_mapFour (fun x hx => by rwa [Slot.isActive_eq, free_asActive, ← Slot.isActive_eq] at hx)
      (fun x hx => (free_isPending x id).symm.trans hx) (fun x i hx => id_of_free x id hx))
    (fun h hs => (slotCount_eq_map (free_isPending · id)).trans (h hs))
    (slotsValid_mapFour (fun x r hr => record_of_free x id hr)) (active_mapFour (free_asActive · id) _)

theorem keeps_armSlot (id : Nat) (hs : n.seq.stand = .rolling) : Keeps c n (armSlot id n) := by
  have hslots : Keeps c n { n with sched := { n.sched with slots := mapFour (Slot.arm id) n.sched.slots } } :=
    keeps_slots (slotsOnce_arm id) (fun _ hne => absurd hs hne)
      (slotsValid_mapFour (fun x r hr => (arm_record x id).symm.trans hr)) (active_mapFour (arm_asActive · id) _)
  refine hslots.trans ?_
  unfold armSlot
  dsimp only
  split
  next r _ =>
    obtain ⟨hlaw, hlen, href, hbase⟩ :=
      prefetch_keeps (g := n.gap) (live := (onNode c n).live) r.pclass n.meas.band
    exact keeps_gap (n := { n with sched := { n.sched with slots := mapFour (Slot.arm id) n.sched.slots } })
      href hbase hlen (fun _ => hlaw)
  next => exact .refl c _

variable (c n)

theorem keeps_writeNextSchedule (h : Header) (id : Byte) : Keeps c n (writeNextSchedule c h id n) := by
  unfold writeNextSchedule
  split
  next hs =>
    split
    · exact (keeps_activate _ hs).trans (keeps_answerEchoed c _ _ _ _)
    · exact keeps_answer c n _ _ _
  next hs =>
    split
    · exact (keeps_armSlot _ hs).trans (keeps_answerEchoed c _ _ _ _)
    · split
      · exact (keeps_disarm).trans (keeps_answerEchoed c _ _ _ _)
      · exact keeps_answer c n _ _ _
  next => exact keeps_answer c n _ _ _

theorem keeps_writeSlotFree (h : Header) (id : Byte) : Keeps c n (writeSlotFree c h id n) := by
  unfold writeSlotFree
  split
  · exact (keeps_free _).trans (keeps_answer c _ _ _ _)
  · split <;> exact keeps_answer c n _ _ _

/-! ## STAND_COMMAND, trims and enables -/

theorem keeps_commandPreset (h : Header) : Keeps c n (commandPreset c h n) := by
  unfold commandPreset
  split
  · exact keeps_answer c n _ _ _
  next hmay =>
    simp only [Bool.or_eq_true, Bool.not_eq_true', not_or, Bool.not_eq_false, decide_eq_true_eq, not_not,
      mayPreset, Bool.and_eq_true] at hmay
    obtain ⟨hs, ⟨ha, _⟩, _⟩ := hmay
    split
    · exact keeps_answer c n _ _ _
    next hroom =>
      exact (keeps_addEntry c n _ (Bool.of_not_eq_true hroom)).trans (keeps_enterPreset hs ha)

theorem abortPreset_seq : (abortPreset c n).seq = n.seq := by
  obtain ⟨r, f, d, h⟩ := abortPreset_rest c n
  rw [h]

theorem keeps_commandQuiet (h : Header) : Keeps c n (commandQuiet c h n) := by
  unfold commandQuiet
  split
  · exact keeps_answer c n _ _ _
  next hs =>
    have hst : (settle c (abortPreset c n)).seq.stand = .preset := by rw [settle_seq, abortPreset_seq]; exact hs
    exact (keeps_abortPreset c n).trans ((keeps_settle c _).trans ((keeps_enterQuiet (by rw [hst]; decide)
      (by rw [hst]; decide) (blank_of_unstopped (by rw [hst]; rfl))).trans (keeps_answer c _ _ _ _)))
  next hs =>
    exact (keeps_enterQuiet (by rw [hs]; decide) (by rw [hs]; decide)
      (blank_of_unstopped (by rw [hs]; rfl))).trans (keeps_answer c _ _ _ _)
  · exact keeps_answer c n _ _ _

theorem keeps_writeGapTrim (h : Header) (trim : Half) : Keeps c n (writeGapTrim c h trim n) := by
  unfold writeGapTrim
  split
  · exact (keeps_gapTerms).trans ((keeps_reassembleUnheld c _).trans (keeps_answerEchoed c _ _ _ _))
  · exact keeps_answer c n _ _ _

theorem keeps_writeFfEnable (h : Header) (v : Byte) : Keeps c n (writeFfEnable c h v n) := by
  unfold writeFfEnable
  split
  · exact (keeps_gapTerms).trans (keeps_answerEchoed c _ _ _ _)
  · exact keeps_answer c n _ _ _

theorem keeps_writeMonitorEnable (h : Header) (v : Byte) : Keeps c n (writeMonitorEnable c h v n) := by
  unfold writeMonitorEnable
  split
  · exact (keeps_gapTerms).trans (keeps_answerEchoed c _ _ _ _)
  · exact keeps_answer c n _ _ _

/-! ## COEF_ENTRY -/

theorem keeps_writeCoef (h : Header) (r : CoefRecord) : Keeps c n (writeCoef c h r n) := by
  unfold writeCoef
  split
  · exact keeps_answer c n _ _ _
  · split
    · exact keeps_answer c n _ _ _
    · split
      · exact keeps_answer c n _ _ _
      next hroom =>
        simp only [Bool.or_eq_true, Bool.not_eq_true', not_or, Bool.not_eq_false, Bool.not_eq_true] at hroom
        obtain ⟨hqueue, htable⟩ := hroom
        have hlen := room_iff.mp hqueue
        exact (keeps_addEntry c n _ htable).trans (keeps_gap
          (n := addEntry (longEntry h 13 .coefWrite (some r.tag)) n) rfl rfl (fun _ => length_enqueue _ hlen)
          (fun _ => fillLaw_enqueue_write r true hlen))

theorem keeps_readCoef (h : Header) (t : CoefTag) : Keeps c n (readCoef c h t n) := by
  unfold readCoef
  split
  · exact keeps_answer c n _ _ _
  · split
    · exact keeps_reply c n _ _ _ _ _
    next hnone =>
      split
      next =>
        split
        · exact keeps_answer c n _ _ _
        next htable => exact keeps_addEntry c n _ (Bool.of_not_eq_true htable)
      next hfilling =>
        split
        · exact keeps_answer c n _ _ _
        next hroom =>
          simp only [Bool.or_eq_true, Bool.not_eq_true', not_or, Bool.not_eq_false, Bool.not_eq_true] at hroom
          obtain ⟨hqueue, htable⟩ := hroom
          have hlen := room_iff.mp hqueue
          exact (keeps_addEntry c n _ htable).trans (keeps_gap
            (n := addEntry (longEntry h 13 .coefRead (some t)) n) rfl rfl (fun _ => length_enqueue _ hlen)
            (fun _ => fillLaw_enqueue_fill hnone hfilling hlen))

/-! ## TRIP_CLEAR -/

theorem keeps_refuseClear (h : Header) (st : Status) : Keeps c n (refuseClear c h st n) :=
  (keeps_tripCounts).trans (keeps_answer c _ _ _ _)

theorem keeps_withdrawIfOwn : Keeps c n (withdrawIfOwn c n) := by
  unfold withdrawIfOwn
  split
  · exact keeps_ring (fun h => h)
  · exact .refl c n

theorem keeps_putFlag (k : Fin 4) (b : Bool) : Keeps c n (putFlag k b n) := keeps_tripCounts

theorem keeps_resetFlags : Keeps c n (resetFlags c n) :=
  (keeps_putFlag c n 0 _).trans ((keeps_putFlag c _ 1 _).trans
    ((keeps_putFlag c _ 2 _).trans (keeps_putFlag c _ 3 _)))

theorem keeps_causeAgain (k : Fin 4) : Keeps c n (causeAgain c k n) := by
  unfold causeAgain
  split
  · exact keeps_localCause c n _ _ _
  · exact .refl c n

theorem keeps_clearEffects (closed : Bool) : Keeps c n (clearEffects c closed n) := by
  unfold clearEffects
  dsimp only
  have hretire : Keeps c n (if closed = true
      then { n with trip := n.trip.retire (fun o => o.station = 0) } else n) := by
    split
    · exact keeps_retire _
    · exact .refl c n
  have hcount : ∀ m : Node, Keeps c m { m with
      flt := m.flt.resetBudget
      trip := { m.trip with clearsTaken := satInc m.trip.clearsTaken } } := fun m => {}
  exact hretire.trans ((keeps_resetFlags c _).trans ((keeps_causeAgain c _ 0).trans
    ((keeps_causeAgain c _ 1).trans ((keeps_causeAgain c _ 2).trans ((keeps_causeAgain c _ 3).trans
      ((hcount _).trans (keeps_judgeTripExit c _)))))))

theorem keeps_takeClearOf (station : Nat) : Keeps c n (takeClearOf c station n) := by
  unfold takeClearOf
  dsimp only
  have hwithdraw : Keeps c n (if station = c.station then withdrawIfOwn c n else n) := by
    split
    · exact keeps_withdrawIfOwn c n
    · exact .refl c n
  exact hwithdraw.trans ((keeps_retire _).trans (keeps_clearEffects c _ _))

theorem keeps_takeClearAll : Keeps c n (takeClearAll c n) := by
  have hdrop : ∀ m : Node, Keeps c m { m with trip :=
      { m.trip.retire (fun o => o.station ≠ 0) with dropped := 0 } } :=
    fun m => (keeps_retire _).trans (keeps_trip (n := { m with trip := _ }) (fun _ _ ho => by
      obtain ⟨hrec, hblank⟩ := (originLaw_iff _).mp ho
      refine ⟨hrec, fun h => ?_⟩
      obtain ⟨ha, hp, _⟩ := hblank h
      exact ⟨ha, hp, rfl⟩))
  exact (keeps_withdrawIfOwn c n).trans ((hdrop _).trans (keeps_clearEffects c _ _))

theorem keeps_writeTripClear (h : Header) (v : Byte) : Keeps c n (writeTripClear c h v n) := by
  unfold writeTripClear
  split
  · exact keeps_refuseClear c n h _
  · split
    · exact keeps_refuseClear c n h _
    · split
      · split
        · exact keeps_refuseClear c n h _
        · exact (keeps_takeClearAll c n).trans ((keeps_settle c _).trans (keeps_answer c _ _ _ _))
      · split
        · exact keeps_refuseClear c n h _
        · split
          · exact keeps_refuseClear c n h _
          · exact (keeps_takeClearOf c n _).trans ((keeps_settle c _).trans (keeps_answer c _ _ _ _))

/-! ## FAULT_COUNTS, FAULT_SUMMARY and NODE_RESET -/

theorem keeps_writeFaultCounts (h : Header) (code : Byte) (count : Half) :
    Keeps c n (writeFaultCounts c h code count n) := by
  unfold writeFaultCounts
  split
  · exact keeps_answer c n _ _ _
  · refine (keeps_flt (fun hlen => ?_)).trans (keeps_answer c _ _ _ _)
    dsimp only
    split
    · exact List.length_replicate
    · rw [List.length_set]; exact hlen

theorem keeps_writeFaultSummary (h : Header) (v : Byte) : Keeps c n (writeFaultSummary c h v n) := by
  unfold writeFaultSummary
  split
  · exact keeps_answer c n _ _ _
  · exact (keeps_flt (f := { n.flt with first := none }) (fun h => h)).trans (keeps_answer c _ _ _ _)

theorem keeps_abortAll : Keeps c n (abortAll c n) :=
  (keeps_dir (fun _ => Nat.zero_le _)).trans (keeps_foldl (fun m _ => keeps_offer c m _) _ _)

theorem abortAll_seq : (abortAll c n).seq = n.seq := by
  have hfold : ∀ (es : List ReqEntry) (m : Node), (es.foldl
      (fun m e => offer c (replyFrame e.requester e.tag e.index .aborted []) m) m).seq = m.seq := by
    intro es
    induction es with
    | nil => exact fun _ => rfl
    | cons e es ih => exact fun m => (ih _).trans (offer_seq c m _)
  exact hfold _ _

variable {c n}

/-- The blocks at a soft reset: the stand in QUIET, the tracking, the record and the cache empty (R194). -/
theorem keeps_softResetBlocks (hs : n.seq.stand.quietish = true) : Keeps c n (softResetBlocks c n) := by
  have hne : n.seq.stand ≠ .starting ∧ n.seq.stand ≠ .rolling ∧ n.seq.stand.stopped = false := by
    cases h : n.seq.stand <;> simp_all [StandState.quietish, StandState.stopped]
  obtain ⟨hstart, hroll, hstop⟩ := hne
  have hquiet := keeps_enterQuietQuietly (c := c) hstart hroll (blank_of_unstopped hstop)
  refine Keeps.trans (hquiet.trans (m := enterQuietQuietly c n) ?_) (keeps_resetFlags c _)
  generalize hm : enterQuietQuietly c n = m
  have hst : m.seq.stand = .quiet := by rw [← hm]; rfl
  exact
    { counters := fun h => h
      ringSized := fun h => sized_of_le (hi := Nat.zero_le _) (ho := Nat.zero_le _) (h := h)
      trackSized := fun _ => ⟨Nat.zero_le _, Nat.zero_le _, Nat.zero_le _, fun _ => rfl⟩
      conserved := fun _ _ => rfl
      queue := fun h => by
        show ((m.gap.queue.take 1).map ParamOp.orphan).length ≤ 4
        rw [List.length_map, List.length_take]; omega
      origin := fun _ _ _ => (originLaw_iff _).mpr
        ⟨⟨fun h => absurd rfl h, fun _ _ h => nomatch h⟩, fun _ => ⟨rfl, rfl, rfl⟩⟩
      slots := fun h => by
        rw [slotLaw_iff] at h ⊢
        refine ⟨slotsOnce_mapFour (fun x hx => ?_) (fun x hx => (dropLoading_isPending x).symm.trans hx)
          (fun x i hx => id_of_dropLoading x hx) h.1,
          fun hne => (slotCount_eq_map dropLoading_isPending).trans (h.2 hne)⟩
        rwa [Slot.isActive_eq, dropLoading_asActive, ← Slot.isActive_eq] at hx
      cache := fun _ _ => fillLaw_invalid rfl (by
        show ((m.gap.queue.take 1).map ParamOp.orphan).length ≤ 1
        rw [List.length_map, List.length_take]; omega) rfl
      gap := fun ⟨hvalid, _⟩ => gapLaw_of_noStrip
        (slotsValid_mapFour (fun x r hr => (dropLoading_record x).symm.trans hr) hvalid) (.inr (.inl hst)) }

variable (c n)

theorem keeps_softReset (hs : n.seq.stand.quietish = true) : Keeps c n (softReset c n) := by
  have hblocks : Keeps c n (softResetBlocks c (abortAll c { n with flt := n.flt.softReset })) := by
    refine (keeps_flt (f := n.flt.softReset) (fun _ => List.length_replicate)).trans
      ((keeps_abortAll c _).trans (keeps_softResetBlocks ?_))
    rw [abortAll_seq]
    exact hs
  refine hblocks.trans ((keeps_pump c _).trans ?_)
  unfold softReset
  dsimp only
  split
  · exact keeps_offerClaim c _
  · exact keeps_settle c _

theorem keeps_writeNodeReset (h : Header) (v : Byte) : Keeps c n (writeNodeReset c h v n) := by
  unfold writeNodeReset
  split
  · exact keeps_answer c n _ _ _
  · split
    next hs => exact (keeps_answer c n h 21 .done).trans (keeps_softReset c _ hs)
    next => exact keeps_answer c n _ _ _

/-! ## Requests (R47 to R50) -/

theorem keeps_ownerWrite (h : Header) (index : Nat) (value : List Byte) :
    Keeps c n (ownerWrite c h index value n) := by
  unfold ownerWrite
  split
  · split
    · exact keeps_commandPreset c n h
    · split
      · exact keeps_commandQuiet c n h
      · exact keeps_answer c n _ _ _
  · exact keeps_writeNextSchedule c n h _
  · exact keeps_writeSlotFree c n h _
  · exact keeps_writeGapTrim c n h _
  · exact keeps_writeFfEnable c n h _
  · exact keeps_writeMonitorEnable c n h _
  · exact keeps_writeCoef c n h _
  · exact keeps_writeTripClear c n h _
  · exact keeps_writeFaultCounts c n h _ _
  · exact keeps_writeFaultSummary c n h _
  · exact keeps_writeNodeReset c n h _
  · exact .refl c n

theorem keeps_writeArrives (h : Header) (index : Byte) (value : List Byte) :
    Keeps c n (writeArrives c h index value n) := by
  unfold writeArrives writeRequest
  split
  · split
    · exact keeps_answer c n _ _ _
    · exact keeps_ownerWrite c n h _ _
  · exact .refl c n

theorem keeps_readArrives (h : Header) (index a1 a2 : Byte) : Keeps c n (readArrives c h index a1 a2 n) := by
  unfold readArrives readRequest
  split
  · split
    · exact keeps_answer c n _ _ _
    · split
      · exact keeps_readCoef c n h _
      · split
        · exact keeps_reply c n _ _ _ _ _
        · exact keeps_answer c n _ _ _
  · exact .refl c n

/-! ## Parameter operations (R150 to R153) -/

theorem keeps_completeReads (t : CoefTag) (got : Option CoefRecord) : Keeps c n (completeReads c t got n) := by
  refine (keeps_dir ?_).trans (keeps_foldl (fun m e => ?_) _ _)
  · exact fun h => (List.length_filter_le _ _).trans h
  · split <;> exact keeps_reply c m _ _ _ _ _

theorem keeps_tellWaiters (t : CoefTag) (got : Option CoefRecord) : Keeps c n (tellWaiters c t got n) :=
  (keeps_fillEnded c n t got).trans (keeps_completeReads c _ t got)

variable {c n}

/-- The fill in service ends, having read a record of its tag or none (R150, R151). -/
theorem keeps_fillOutcome {t : CoefTag} {got : Option CoefRecord} {rest : List ParamOp}
    (hq : n.gap.queue = .fill t :: rest) (hgot : ∀ r, got = some r → r.tag = t) :
    Keeps c n { n with gap := (n.gap.fillOutcome t got).endOperation } := by
  obtain ⟨hqueue, _, href, hbase⟩ := fillOutcome_kept (g := n.gap) t got
  exact keeps_gap href hbase (fun h => length_endOperation (hqueue ▸ h))
    (fun hl hg => fillLaw_fillEnds hl hq hgot hg)

/-- The write in service ends, its tag's cached copy replaced by a record of the tag or none (R153). -/
theorem keeps_updateCopy {t : CoefTag} {w : Option CoefRecord} {r : CoefRecord} {e : Bool} {rest : List ParamOp}
    (hq : n.gap.queue = .write r e :: rest) (hw : ∀ r, w = some r → r.tag = t) :
    Keeps c n { n with gap := (n.gap.updateCopy t w).endOperation } :=
  keeps_gap rfl rfl (fun h => length_endOperation h) (fun hl hg => fillLaw_writeEnds hl hq hw hg)

theorem keeps_endFill {t : CoefTag} {got : Option CoefRecord} {rest : List ParamOp}
    (hq : n.gap.queue = .fill t :: rest) (hgot : ∀ r, got = some r → r.tag = t) :
    Keeps c n (endFill c t got n) :=
  (keeps_fillOutcome hq hgot).trans (keeps_tellWaiters c _ t got)

theorem keeps_endWriteEntry (t : CoefTag) (e : Bool) (st : Status) : Keeps c n (endWriteEntry c t e st n) := by
  unfold endWriteEntry
  split
  · exact keeps_endEntry c n _ _ _
  · exact .refl c n

theorem keeps_endWrite {r : CoefRecord} {e : Bool} {rest : List ParamOp}
    (hq : n.gap.queue = .write r e :: rest) : Keeps c n (endWrite c r e n) :=
  (keeps_updateCopy hq (fun _ h => by cases h; rfl)).trans (keeps_endWriteEntry _ _ _)

variable (c n)

theorem keeps_paramTimeout : Keeps c n (paramTimeout c n) := by
  unfold paramTimeout
  split
  next hq =>
    exact (keeps_fillOutcome hq (fun _ h => by cases h)).trans
      ((keeps_raise c _ _).trans (keeps_tellWaiters c _ _ _))
  next hq =>
    exact (keeps_updateCopy hq (fun _ h => by cases h)).trans
      ((keeps_raise c _ _).trans (keeps_endWriteEntry _ _ _))
  · exact .refl c n

/-! ## Loading schedules (R124 to R128) -/

theorem keeps_schedAnswer (h : Header) (st : Status) : Keeps c n (schedAnswer c h st n) :=
  keeps_answer c n _ _ _

theorem keeps_schedOpened (h : Header) (id count : Byte) : Keeps c n (schedOpened c h id count n) := by
  unfold schedOpened
  split
  · exact keeps_schedAnswer c n _ _
  · split
    next k hk =>
      obtain ⟨l, hl, hid, _⟩ := loads_iff.mp (findSlot_some hk)
      exact (keeps_putLoading hl rfl rfl (fun _ h => by cases h)
        (fun i hi => by cases hi; exact hid.symm)).trans (keeps_schedAnswer c _ _ _)
    next =>
      split
      · exact keeps_schedAnswer c n _ _
      next hno =>
        split
        · exact keeps_schedAnswer c n _ _
        next k hk =>
          split
          · exact keeps_schedAnswer c n _ _
          · exact (keeps_beginLoading (isEmpty_iff.mp (findSlot_some hk)) (Bool.of_not_eq_true hno)).trans
              (keeps_schedAnswer c _ _ _)

variable {c n}

theorem keeps_refuseLoad {k : Fin 4} {l : Loading} (h : Header) (hk : getFour n.sched.slots k = .loading l) :
    Keeps c n (refuseLoad c h k n) :=
  (keeps_emptyLoading hk).trans ((keeps_raise c _ _).trans (keeps_schedAnswer c _ _ _))

variable (c n)

theorem keeps_schedSectionTaken (h : Header) (id number : Byte) (content : List Byte) :
    Keeps c n (schedSectionTaken c h id number content n) := by
  unfold schedSectionTaken
  split
  · exact keeps_schedAnswer c n _ _
  next k l hload =>
    obtain ⟨hk, _⟩ := loadAt_some hload
    split
    · exact keeps_refuseLoad h hk
    · exact (keeps_putLoading hk rfl rfl (fun _ h => by cases h) (fun i hi => by cases hi; rfl)).trans
        (keeps_schedAnswer c _ _ _)

theorem keeps_schedClosed (h : Header) (id : Byte) (check : Half) : Keeps c n (schedClosed c h id check n) := by
  unfold schedClosed
  split
  · exact keeps_schedAnswer c n _ _
  next k l hload =>
    obtain ⟨hk, _⟩ := loadAt_some hload
    split
    · exact keeps_refuseLoad h hk
    · split
      · exact (keeps_emptyLoading hk).trans ((keeps_sched).trans (keeps_schedAnswer c _ _ _))
      next hvalid =>
        simp only [Bool.or_eq_true, Bool.not_eq_true', not_or, Bool.not_eq_false] at hvalid
        exact (keeps_putLoading hk rfl rfl (fun _ h => by cases h; exact hvalid.2)
          (fun i hi => by cases hi; rfl)).trans ((keeps_sched).trans (keeps_schedAnswer c _ _ _))

theorem keeps_schedArrives {f : Node → Node} (h : Header) (hf : Keeps c n (f n)) :
    Keeps c n (schedArrives c h f n) := by
  unfold schedArrives
  split
  · exact .refl c n
  · split
    · exact keeps_schedAnswer c n _ _
    · exact hf

theorem keeps_schedIdle (k : Fin 4) : Keeps c n (schedIdle k n) := by
  unfold schedIdle
  split
  next h =>
    rw [timerOut_iff] at h
    cases hk : getFour n.sched.slots k with
    | loading l => exact (keeps_emptyLoading hk).trans (keeps_sched)
    | _ => rw [hk] at h; cases h
  next => exact .refl c n

end Sys2Proof.Machine
end

section
/-! SUPPORT. The rows of the Measurement Ports, of frames handed on and of the Trip Unit keep the laws, and so
does every command but the rows of start-up. -/

namespace Sys2Proof.Machine

set_option Elab.async false

variable {c : Settings} {n : Node}

theorem keeps_withPins (p : Pins) : Keeps c n (n.withPins p) := {}

/-- The free index, with the Measurement Ports' marks and values. -/
theorem keeps_measFree {x : Meas} {k : Nat} (h : x.fifo = n.meas.fifo := by rfl) :
    Keeps c n { n with meas := x, freeIndex := k } where
  fifo := fun hl => h ▸ hl

/-- The Measurement Ports but for the FIFO. -/
theorem keeps_measMarks {x : Meas} (h : x.fifo = n.meas.fifo := by rfl) : Keeps c n { n with meas := x } where
  fifo := fun hl => h ▸ hl

variable (c n)

/-! ## Gauge and force -/

theorem keeps_gaugeSampled (thickness : Nat) (good : Bool) : Keeps c n (gaugeSampled c thickness good n) := by
  unfold gaugeSampled
  split
  · exact keeps_measMarks
  · split
    · exact keeps_measMarks
    · split
      · exact keeps_raise c n _
      next hroom =>
        refine keeps_meas (fun _ => ?_)
        simp only [Meas.takeIn, List.length_append, List.length_cons, List.length_nil]
        omega

theorem keeps_measuringChanged (before : Pins) (level : Bool) :
    Keeps c n (measuringChanged c before level n) := by
  unfold measuringChanged
  split
  · exact keeps_raise c n _
  · exact .refl c n

theorem keeps_updateBand : Keeps c n (updateBand c n) := by
  unfold updateBand
  split
  · exact keeps_measFree
  · exact keeps_measMarks

theorem keeps_updateLoad : Keeps c n (updateLoad c n) := by
  unfold updateLoad
  split
  · exact .refl c n
  · split
    · exact (keeps_measMarks (x := { n.meas with loadOn := true })).trans (keeps_loadOnEvent c _)
    · split
      · exact (keeps_measMarks (x := { n.meas with loadOn := false })).trans (keeps_loadOffEvent c _)
      · exact .refl c n

theorem keeps_updateOverload : Keeps c n (updateOverload c n) := by
  unfold updateOverload
  split
  · exact .refl c n
  · split
    · split
      · exact (keeps_measMarks (x := { n.meas with overload := true })).trans (keeps_raise c _ _)
      · exact .refl c n
    · split
      · exact (keeps_measMarks (x := { n.meas with overload := false })).trans (keeps_clearHold c _ _)
      · exact .refl c n

theorem putForce_fifo (m : Meas) (side : Side) (v : SideValue) : (m.putForce side v).fifo = m.fifo := by
  cases side <;> rfl

theorem putPosition_fifo (m : Meas) (side : Side) (v : SideValue) : (m.putPosition side v).fifo = m.fifo := by
  cases side <;> rfl

theorem keeps_forceValid (side : Side) (force : Nat) : Keeps c n (forceValid c side force n) :=
  (keeps_measMarks (putForce_fifo _ _ _)).trans ((keeps_updateBand c _).trans
    ((keeps_updateLoad c _).trans (keeps_updateOverload c _)))

theorem keeps_forceInvalid (side : Side) : Keeps c n (forceInvalid c side n) := by
  unfold forceInvalid
  split
  · exact (keeps_measMarks (putForce_fifo _ _ _)).trans (keeps_raise c _ _)
  · exact .refl c n

/-! ## Position and moves -/

theorem keeps_updateTilt : Keeps c n (updateTilt c n) := by
  unfold updateTilt
  dsimp only
  split
  · exact (keeps_measFree).trans (keeps_raise c _ _)
  · exact keeps_measFree

theorem keeps_completeMove : Keeps c n (completeMove c n) := by
  refine (keeps_gapTerms (g := { n.gap with
    supervision := .idle, timer := none
    moves := { n.gap.moves with completed := satInc n.gap.moves.completed } })).trans ?_
  unfold completeMove
  dsimp only
  split
  next hs => exact Keeps.trans (m := enterReady _) (keeps_enterReady hs) (keeps_endEntry c _ _ _ _)
  next => exact .refl c _

theorem keeps_completeRetract : Keeps c n (completeRetract c n) :=
  (keeps_gapTerms).trans (keeps_judgeTripExit c _)

theorem keeps_judgeGap : Keeps c n (judgeGap c n) := by
  unfold judgeGap
  split
  · split
    · exact keeps_completeMove c n
    · exact .refl c n
  · split
    · exact keeps_completeRetract c n
    · exact .refl c n
  · exact .refl c n

theorem keeps_positionValid (side : Side) (position : Nat) : Keeps c n (positionValid c side position n) :=
  (keeps_measMarks (putPosition_fifo _ _ _)).trans ((keeps_updateTilt c _).trans (keeps_judgeGap c _))

theorem keeps_positionInvalid (side : Side) : Keeps c n (positionInvalid c side n) := by
  unfold positionInvalid
  split
  · exact (keeps_measMarks (putPosition_fifo _ _ _)).trans (keeps_raise c _ _)
  · exact .refl c n

theorem keeps_failPreset : Keeps c n (failPreset c n) := by
  unfold failPreset
  split
  next hs =>
    exact (keeps_enterQuiet (by rw [hs]; decide) (by rw [hs]; decide)
      (blank_of_unstopped (by rw [hs]; rfl))).trans (keeps_endEntry c _ _ _ _)
  next => exact .refl c n

theorem keeps_moveExpiry : Keeps c n (moveExpiry c n) := by
  unfold moveExpiry
  split
  · exact (keeps_gapTerms (g := n.gap.timeOutMove)).trans ((keeps_raise c _ _).trans (keeps_failPreset c _))
  · exact .refl c n

theorem keeps_retractExpiry : Keeps c n (retractExpiry c n) := by
  unfold retractExpiry
  split
  · exact (keeps_gapTerms (g := { n.gap with supervision := .retractFailed, timer := none })).trans
      (keeps_raise c _ _)
  · exact .refl c n

/-! ## Length -/

theorem keeps_noteEncoderError (which : Encoder) : Keeps c n (noteEncoderError which n) := by
  cases which <;> exact keeps_measMarks

theorem keeps_noteReversal : Keeps c n (noteReversal c n) := by
  have hmark : Keeps c n { n with meas := { n.meas with reversal := some n.meas.exitPeak } } := keeps_measMarks
  unfold noteReversal
  dsimp only
  split
  · exact .refl c n
  · split
    · exact hmark.trans (keeps_raise c _ _)
    · exact hmark

theorem keeps_recover : Keeps c n (recover c n) :=
  (keeps_measMarks (x := { n.meas with reversal := none })).trans (keeps_clearHold c _ _)

theorem keeps_exitCompared : Keeps c n (exitCompared c n) :=
  (keeps_closeOnCount c n).trans (keeps_publishOnCount c _)

theorem keeps_exitForward : Keeps c n (exitForward c n) := by
  refine (keeps_measMarks (x := n.meas.exitForward)).trans ?_
  unfold exitForward
  dsimp only
  split
  · refine Keeps.trans (m := { n with meas := n.meas.exitForward, freeIndex := n.freeIndex + 1 }) {} ?_
    split
    · exact (keeps_recover c _).trans (keeps_exitCompared c _)
    · exact (keeps_exitCompared c _).trans (keeps_recover c _)
  · exact keeps_exitCompared c _

theorem keeps_exitReverse : Keeps c n (exitReverse c n) :=
  (keeps_noteReversal c n).trans ((keeps_measMarks).trans (keeps_exitCompared c _))

theorem keeps_entryForward : Keeps c n (entryForward c n) := (keeps_measMarks).trans (keeps_applyAll c _)

theorem keeps_entryReverse : Keeps c n (entryReverse c n) :=
  (keeps_noteReversal c n).trans ((keeps_measMarks).trans (keeps_applyAll c _))

theorem keeps_encoderTurned (which : Encoder) (t : Turn) : Keeps c n (encoderTurned c which t n) := by
  unfold encoderTurned
  split
  · exact .refl c n
  · exact keeps_noteEncoderError c n _
  · exact keeps_entryForward c n
  · exact keeps_entryReverse c n
  · exact keeps_exitForward c n
  · exact keeps_exitReverse c n

/-! ## Frames handed on (R11, R34, R164) -/

theorem keeps_hearNeighbours (source : Byte) (info : BeaconInfo) :
    Keeps c n (hearNeighbours c source info n) := by
  have hup : Keeps c n (if source = byte c.config.upstream then hearNeighbour c .upstream info n else n) := by
    split
    · exact keeps_hearNeighbour c n _ _
    · exact .refl c n
  have hdown : ∀ m, Keeps c m
      (if source = byte c.config.downstream then hearNeighbour c .downstream info m else m) := by
    intro m
    split
    · exact keeps_hearNeighbour c m _ _
    · exact .refl c m
  exact hup.trans (hdown _)

theorem keeps_seekHeard : Keeps c n (seekHeard c n) := by
  unfold seekHeard
  split
  · exact keeps_enterJoined c n true
  · exact .refl c n

theorem keeps_receiveBeacon (source : Byte) (info : BeaconInfo) : Keeps c n (receiveBeacon c source info n) := by
  refine (keeps_hearNeighbours c n source info).trans ((keeps_seekHeard c _).trans ?_)
  unfold receiveBeacon
  dsimp only
  split
  · exact keeps_sinkBeacon c _ info
  · exact .refl c _

theorem keeps_beaconArrives (h : Header) (p : BeaconPayload) : Keeps c n (beaconArrives c h p n) := by
  unfold beaconArrives
  split
  · exact keeps_receiveBeacon c n _ _
  · exact .refl c n

theorem keeps_segArrives (h : Header) (p : SegPayload) : Keeps c n (segArrives c h p n) := by
  unfold segArrives
  split
  · exact keeps_receiveSeg c n _ p
  · exact .refl c n

theorem keeps_markArrives (h : Header) (p : MarkPayload) : Keeps c n (markArrives c h p n) := by
  unfold markArrives
  split
  · exact keeps_receiveMark c n _ p
  · exact .refl c n

variable {c n}

theorem keeps_receiveTrip (o : Origin) (hs : n.seq.stand ≠ .starting) : Keeps c n (receiveTrip c o n) := by
  unfold receiveTrip
  split
  · exact keeps_tripCounts
  next hi =>
    have hnew : n.trip.recorded o.station = false := by
      simp only [tripIgnored, Bool.or_eq_true, not_or, Bool.not_eq_true] at hi
      exact hi.2
    split
    · exact keeps_enterTrippedIfNot hs (fun _ _ _ => recordHolds_replace hnew)
    · exact keeps_enterTrippedIfNot hs
        (fun _ _ ho => recordHolds_placeOrigin ((originLaw_iff _).mp ho).1 hnew)

variable (c n)

theorem keeps_tripArrives (h : Header) (p : TripPayload) : Keeps c n (tripArrives c h p n) := by
  unfold tripArrives
  split
  next hh =>
    simp only [handed, Bool.and_eq_true, decide_eq_true_eq] at hh
    exact keeps_receiveTrip _ hh.2
  next => exact .refl c n

theorem keeps_schedPayload (h : Header) (payload : List Byte) : Keeps c n (schedPayload c h payload n) := by
  unfold schedPayload
  split
  · exact keeps_schedArrives c n h (keeps_schedOpened c n h _ _)
  · exact keeps_schedArrives c n h (keeps_schedSectionTaken c n h _ _ _)
  · exact keeps_schedArrives c n h (keeps_schedClosed c n h _ _)
  · exact .refl c n

theorem keeps_deliver (f : Frame) : Keeps c n (deliver c f n) := by
  unfold deliver
  dsimp only
  split
  · split
    · exact keeps_segArrives c n _ _
    · exact .refl c n
  · split
    · exact keeps_markArrives c n _ _
    · exact .refl c n
  · split
    · exact keeps_beaconArrives c n _ _
    · exact .refl c n
  · split
    · exact keeps_tripArrives c n _ _
    · exact .refl c n
  · unfold rdreqPayload
    split
    · exact keeps_readArrives c n _ _ _ _
    · exact .refl c n
  · unfold wrreqPayload
    split
    · exact keeps_writeArrives c n _ _ _
    · exact .refl c n
  · exact keeps_schedPayload c n _ _
  all_goals exact .refl c n

theorem keeps_intactFrame (f : Frame) : Keeps c n (intactFrame c f n) := by
  unfold intactFrame
  split
  · exact keeps_forward c n f
  · split
    · split
      · exact keeps_claimArrives c n f
      · exact keeps_returnOwn c n _
    · unfold foreignFrame
      split
      · exact keeps_forward c n f
      · exact (keeps_forward c n f).trans (keeps_deliver c _ f)

theorem keeps_frameArrives (bytes : List Byte) : Keeps c n (frameArrives c bytes n) := by
  unfold frameArrives
  split
  · exact keeps_raise c n _
  · exact keeps_raise c n _
  · exact keeps_intactFrame c n _

/-! ## Standing conditions, lines, the loop and SERVO_FLT -/

theorem recordHolds_unknown {t : TripUnit} (ha : t.active = none) (h : t.recordHolds) :
    ({ t with active := some Origin.unknown } : TripUnit).recordHolds := by
  obtain ⟨hfirst, _⟩ := h
  have hp : t.pending = none := by
    cases he : t.pending with
    | none => rfl
    | some p => exact absurd ha (hfirst (by rw [he]; simp))
  exact ⟨fun _ => by simp, fun a p _ hq => by rw [show t.pending = some p from hq] at hp; cases hp⟩

theorem keeps_loopOpenActs : Keeps c n (loopOpenActs c n) := by
  unfold loopOpenActs
  split
  · exact .refl c n
  · exact .refl c n
  next hs _ =>
    split
    · exact .refl c n
    next ha =>
      refine keeps_enterTrippedIfNot hs (fun _ _ ho => ?_)
      exact recordHolds_unknown (by simpa using ha) ((originLaw_iff _).mp ho).1

theorem keeps_standingActs (k : Standing) : Keeps c n (standingActs c k n) := by
  unfold standingActs
  split
  · exact keeps_loadOnEvent c n
  · exact keeps_raise c n _
  · exact keeps_localCause c n _ _ _
  · exact keeps_raise c n _
  · split
    · exact .refl c n
    · exact keeps_loopOpenActs c n

theorem keeps_takeStanding (k : Standing) : Keeps c n (takeStanding c k n) := by
  unfold takeStanding
  split
  · exact Keeps.trans (m := { n with startup := { n.startup with standing := n.startup.standing.erase k } }) {}
      (keeps_standingActs c _ k)
  · exact .refl c n

theorem keeps_putLine (k : Fin 4) (l : LineState) : Keeps c n (putLine k l n) := keeps_tripCounts

theorem keeps_lineChanged (k : Fin 4) (level : Bool) : Keeps c n (lineChanged c k level n) := by
  unfold lineChanged
  split
  · exact keeps_putLine c n k _
  · split
    · unfold lineOccurs
      dsimp only
      split
      · exact (keeps_putLine c n k _).trans (keeps_localCause c _ _ _ _)
      · exact keeps_putLine c n k _
    · exact .refl c n

theorem keeps_loopOpened : Keeps c n (loopOpened c n) :=
  (keeps_tripCounts).trans (keeps_loopOpenActs c _)

theorem keeps_servoFails : Keeps c n (servoFails c n) := by
  unfold servoFails
  split
  · exact .refl c n
  · exact (keeps_gapTerms).trans (keeps_raise c _ _)

/-! ## Every command but the rows of start-up -/

variable {s t : State}

/-- What such a command makes of the machine: new levels of the input lines, or outside a reset an act that
keeps the laws. -/
def ActsKeeping (s t : State) : Prop :=
  t.settings = s.settings ∧
    ((∃ p, t.node = s.node.withPins p) ∨ s.live ∧ Keeps s.settings s.node t.node)

theorem actsKeeping_void : ActsKeeping s s := ⟨rfl, .inl ⟨s.node.pins, rfl⟩⟩

theorem actsKeeping_act {mem : List Host.Cell} {g : Settings → Node → Node}
    (hk : Keeps s.settings s.node (g s.settings s.node))
    (h : ({ s with paramMem := mem } : State).act g = .next t) : ActsKeeping s t := by
  by_cases hl : s.live
  · rw [State.act_live _ _ (by exact hl)] at h
    cases h
    exact ⟨rfl, .inr ⟨hl, hk.trans (keeps_finish _ _)⟩⟩
  · rw [State.act_reset _ _ (by exact hl)] at h
    cases h
    exact ⟨rfl, .inl ⟨s.node.pins, rfl⟩⟩

theorem actsKeeping_plain {g : Settings → Node → Node} (h : s.act g = .next t)
    (hk : Keeps s.settings s.node (g s.settings s.node)) : ActsKeeping s t :=
  actsKeeping_act (mem := s.paramMem) hk h

theorem actsKeeping_input {p : Pins} {g : Settings → Pins → Node → Node} (h : s.input p g = .next t)
    (hk : Keeps s.settings (s.node.withPins p) (g s.settings s.node.pins (s.node.withPins p))) :
    ActsKeeping s t := by
  by_cases hl : s.live
  · rw [State.input_live _ _ _ hl] at h
    cases h
    exact ⟨rfl, .inr ⟨hl, (keeps_withPins p).trans (hk.trans (keeps_finish _ _))⟩⟩
  · rw [State.input_reset _ _ _ hl] at h
    cases h
    exact ⟨rfl, .inl ⟨p, rfl⟩⟩

theorem queue_of_fillInService {g : GapControl} {k : CoefTag} (h : fillInService g = some k) :
    ∃ rest, g.queue = .fill k :: rest := by
  unfold fillInService at h
  split at h
  next hq => cases h; exact ⟨_, hq⟩
  next => cases h

theorem actsKeeping_fillComplete {record : MemRead} (h : execFillComplete record s = .next t) :
    ActsKeeping s t := by
  unfold execFillComplete at h
  split at h
  · cases h; exact actsKeeping_void
  next hk =>
    obtain ⟨rest, hq⟩ := queue_of_fillInService hk
    exact actsKeeping_act (keeps_endFill hq (fun r hr => tag_of_recordRead hr)) h

theorem actsKeeping_coefWriteComplete (h : execCoefWriteComplete s = .next t) : ActsKeeping s t := by
  unfold execCoefWriteComplete at h
  split at h
  next hq => exact actsKeeping_act (keeps_endWrite hq) h
  next => cases h; exact actsKeeping_void

theorem keeps_ite {p : Prop} [Decidable p] {m : Node} (h : Keeps c n m) : Keeps c n (if p then m else n) := by
  split
  · exact h
  · exact .refl c n

theorem keeps_iteNot {p : Prop} [Decidable p] {m : Node} (h : Keeps c n m) :
    Keeps c n (if p then n else m) := by
  split
  · exact .refl c n
  · exact h

/-- Every command but the rows of start-up keeps the laws. -/
theorem exec_keeps {i : Instr} (hi : startupRow i = false) (h : exec i s = .next t) : ActsKeeping s t := by
  cases i with simp only [exec] at h
  | resetAssert | resetEnd | configReadEnd | configReadTimeout => cases hi
  | standingCondition k => exact actsKeeping_plain h (keeps_takeStanding _ _ k)
  | frameArrival bytes => exact actsKeeping_plain h (keeps_frameArrives _ _ bytes)
  | ownFrameReturn tag => exact actsKeeping_plain h (keeps_iteNot _ _ (keeps_returnOwn _ _ tag))
  | claimOwnSource k => exact actsKeeping_plain h (keeps_ite _ _ (keeps_claimArrives _ _ _))
  | transmitEnd => exact actsKeeping_plain h (keeps_endTransmission _ _)
  | returnTimeout => exact actsKeeping_plain h (keeps_returnExpiry _ _)
  | carrierLock => exact actsKeeping_input h (keeps_carrierLocked _ _)
  | carrierLoss => exact actsKeeping_input h (keeps_carrierLost _ _)
  | beaconReceived k p => exact actsKeeping_plain h (keeps_beaconArrives _ _ k p)
  | beaconTimerExpiry => exact actsKeeping_plain h (keeps_beaconExpiry _ _)
  | seekTimerExpiry => exact actsKeeping_plain h (keeps_seekExpiry _ _)
  | livenessTimerExpiry w => exact actsKeeping_plain h (keeps_livenessExpiry _ _ w)
  | ringBreakGraceExpiry => exact actsKeeping_plain h (keeps_graceExpiry _ _)
  | coefEntryRead k a b => exact actsKeeping_plain h (keeps_readArrives _ _ k _ _ _)
  | objectWrite | standCommandPreset | standCommandQuiet | nextSchedule | slotFree | gapTrim | ffEnable
  | monitorEnable | coefEntryWrite | tripClearStation | tripClearAll | faultCountsClear | faultSummaryClear
  | nodeReset => exact actsKeeping_plain h (keeps_writeArrives _ _ _ _ _)
  | schedOpen k id count => exact actsKeeping_plain h (keeps_schedArrives _ _ k (keeps_schedOpened _ _ k _ _))
  | schedSection k id number content =>
    exact actsKeeping_plain h (keeps_schedArrives _ _ k (keeps_schedSectionTaken _ _ k _ _ _))
  | schedClose k id check => exact actsKeeping_plain h (keeps_schedArrives _ _ k (keeps_schedClosed _ _ k _ _))
  | schedIdleTimeout slot => exact actsKeeping_plain h (keeps_schedIdle _ _ slot)
  | segReceived k p => exact actsKeeping_plain h (keeps_segArrives _ _ k p)
  | markReceived k p => exact actsKeeping_plain h (keeps_markArrives _ _ k p)
  | tripReceived k p => exact actsKeeping_plain h (keeps_tripArrives _ _ k p)
  | gaugeSample a b => exact actsKeeping_plain h (keeps_gaugeSampled _ _ a b)
  | measuringChange l => exact actsKeeping_input h (keeps_measuringChanged _ _ _ l)
  | sampleTake => exact actsKeeping_plain h (keeps_takeSample _ _)
  | forceSample side valid force =>
    refine actsKeeping_plain h ?_
    cases valid with
    | true => exact keeps_forceValid _ _ side force
    | false => exact keeps_forceInvalid _ _ side
  | positionSample side valid position =>
    refine actsKeeping_plain h ?_
    cases valid with
    | true => exact keeps_positionValid _ _ side position
    | false => exact keeps_positionInvalid _ _ side
  | encoderPulse w a b => exact actsKeeping_input h (keeps_encoderTurned _ _ w _)
  | moveTimerExpiry => exact actsKeeping_plain h (keeps_moveExpiry _ _)
  | retractTimerExpiry => exact actsKeeping_plain h (keeps_retractExpiry _ _)
  | fillComplete record => exact actsKeeping_fillComplete h
  | coefWriteComplete => exact actsKeeping_coefWriteComplete h
  | paramOpTimeout => exact actsKeeping_plain h (keeps_paramTimeout _ _)
  | tripLineChange line level => exact actsKeeping_input h (keeps_iteNot _ _ (keeps_lineChanged _ _ line level))
  | loopOpen => exact actsKeeping_input h (keeps_ite _ _ (keeps_loopOpened _ _))
  | loopClosing => exact actsKeeping_input h (keeps_iteNot _ _ (keeps_judgeTripExit _ _))
  | servoFlt asserted => exact actsKeeping_input h (keeps_ite _ _ (keeps_servoFails _ _))

end Sys2Proof.Machine
end

section
/-! SUPPORT. From what every operation of the node keeps to what every step keeps: a law over the settings and
the node is shown for the passing of a millisecond, the beginning and the end of a reset, and the end of
start-up, and holds then after every step. The laws of the statements, one by one. -/

namespace Sys2Proof.Machine

set_option Elab.async false

variable {c : Settings} {n : Node} {s t : State} {P : Settings → Node → Prop}

/-- What it takes for a law to outlast every step. -/
structure StepLaw (P : Settings → Node → Prop) : Prop where
  lines : ∀ c n p, P c n → P c (n.withPins p) := by exact fun _ _ _ h => h
  draws : ∀ c n k, P c n → P c { n with freeIndex := k } := by exact fun _ _ _ h => h
  ticks : ∀ c n k, P c n → P c { tickNode n with freeIndex := k } := by exact fun _ _ _ h => h
  acts : ∀ c n m, (onNode c n).live → Keeps c n m → P c n → P c m
  asserts : ∀ c n pin, P c n → P c (n.beginReset pin)
  powers : ∀ station writeProtect p seen k,
    P (strapSettings station writeProtect) (Node.powerOn p (strapPhase station) seen k)
  accepts : ∀ c k n, n.startup.phase = .reading → P c n →
    P { c with config := k } (enterRunning { c with config := k } n)
  refuses : ∀ c n, n.startup.phase = .reading → P c n → P c (endInvalid n)

namespace StepLaw

theorem idle (L : StepLaw P) (hs : P s.settings s.node) : P s.idle.settings s.idle.node := by
  obtain hi | ⟨_, hset, _, k, hn | hn⟩ := idle_cases s
  · rw [hi]; exact hs
  · rw [hset, hn]; exact L.draws _ _ k hs
  · rw [hset, hn]; exact L.ticks _ _ k hs

/-- The ring's start and the end of the command follow the entry to QUIET (R192). -/
theorem startRunning (L : StepLaw P) (k : NodeConfig) (hp : n.startup.phase = .reading) (hs : P c n) :
    P { c with config := k } (startRunning { c with config := k } n) := by
  refine L.acts _ _ _ (fun h => by cases h) (Keeps.trans (keeps_ite _ _ ?_) (keeps_finish _ _))
    (L.accepts c k n hp hs)
  exact keeps_enterClaiming _ _

theorem judgeImage (L : StepLaw P) (im : List Byte) (hp : s.node.startup.phase = .reading)
    (hs : P s.settings s.node) : P (judgeImage im s).settings (judgeImage im s).node := by
  unfold Machine.judgeImage
  split
  · exact L.startRunning _ hp hs
  · exact L.refuses _ _ hp hs

theorem configReadEnd (L : StepLaw P) {image : MemRead} (hs : P s.settings s.node)
    (h : execConfigReadEnd image s = .next t) : P t.settings t.node := by
  unfold execConfigReadEnd at h
  cases h
  split
  next hp => exact L.judgeImage _ hp hs
  next => exact hs

theorem configReadTimeout (L : StepLaw P) (hs : P s.settings s.node)
    (h : execConfigReadTimeout s = .next t) : P t.settings t.node := by
  unfold execConfigReadTimeout at h
  cases h
  split
  next hp => exact L.refuses _ _ hp hs
  next => exact hs

theorem exec (L : StepLaw P) {i : Instr} (hs : P s.settings s.node) (h : exec i s = .next t) :
    P t.settings t.node := by
  cases hi : startupRow i with
  | false =>
    obtain ⟨hset, ⟨p, hn⟩ | ⟨hl, hk⟩⟩ := exec_keeps hi h
    · rw [hset, hn]; exact L.lines _ _ p hs
    · rw [hset]; exact L.acts _ _ _ hl hk hs
  | true =>
    cases i with
    | resetAssert pin => cases h; exact L.asserts _ _ pin hs
    | resetEnd => cases h; exact L.powers _ _ _ _ _
    | configReadEnd image => exact L.configReadEnd hs h
    | configReadTimeout => exact L.configReadTimeout hs h
    | _ => cases hi

/-- A law that the operations and start-up keep is kept by every step. -/
theorem step (L : StepLaw P) (hs : P s.settings s.node) (h : step s = .next t) : P t.settings t.node :=
  step_induct (P := fun t => P t.settings t.node) h (fun _ => L.idle hs)
    (fun _ rest _ hx => L.exec (s := { s with pending := rest }) hs hx)

end StepLaw

/-! ## Counters and collections -/

theorem countersLaw : StepLaw (fun _ n => n.flt.counters.length = 32) where
  acts _ _ _ _ hk h := hk.counters h
  asserts _ _ _ h := h
  powers _ _ _ _ _ := rfl
  accepts _ _ _ _ h := h
  refuses _ _ _ h := h

/-- Settles O6: `step_settled`, and no operation changes the number of the counters. -/
theorem stepHandlesEveryFaultEvent : Obligations.StepHandlesEveryFaultEvent :=
  fun _ _ hs hc h => ⟨step_settled hs h, countersLaw.step hc h⟩

/-- The collections within their sizes, block by block. -/
def Node.sized (n : Node) : Prop :=
  n.ring.sized ∧ n.dir.table.length ≤ 4 ∧ n.meas.fifo.length ≤ 32 ∧ n.track.sized ∧ n.gap.queue.length ≤ 4

theorem bounded_iff (s : State) : s.bounded ↔ s.node.sized := by
  unfold State.bounded Node.sized RingPort.sized Tracking.sized
  tauto

theorem sizedLaw : StepLaw (fun _ n => n.sized) where
  acts _ _ _ _ hk h := by
    obtain ⟨hring, htable, hfifo, htrack, hqueue⟩ := h
    exact ⟨hk.ringSized hring, hk.table htable, hk.fifo hfifo, hk.trackSized htrack, hk.queue hqueue⟩
  asserts _ _ _ h := by
    obtain ⟨hring, _, hfifo, htrack, _⟩ := h
    exact ⟨hring, Nat.zero_le 4, hfifo, htrack, Nat.zero_le 4⟩
  powers _ _ _ _ _ := by
    refine ⟨⟨?_, ?_, ?_⟩, ?_, ?_, ⟨?_, ?_, ?_, fun _ => rfl⟩, ?_⟩
    all_goals exact Nat.zero_le _
  accepts _ _ _ _ h := h
  refuses _ _ _ h := h

/-- Settles O12: each collection's own bound is kept. -/
theorem stepKeepsCollectionsBounded : Obligations.StepKeepsCollectionsBounded :=
  fun s t hs h => (bounded_iff t).mpr (sizedLaw.step ((bounded_iff s).mp hs) h)

theorem conservedLaw : StepLaw (fun _ n => n.track.owes 0) where
  acts _ _ _ _ hk h := hk.conserved h
  asserts _ _ _ h := h
  powers _ _ _ _ _ := fun _ => rfl
  accepts _ _ _ _ h := h
  refuses _ _ _ h := h

/-- Settles O10: a segment that is closed joins the track, and one that leaves it is published or discarded. -/
theorem stepConservesExitRecords : Obligations.StepConservesExitRecords :=
  fun _ _ hs h => conservedLaw.step (P := fun _ n => n.track.owes 0) hs h

/-! ## Start-up and the origin record -/

theorem strapPhase_station {k : Nat} (h : strapPhase k = .reading ∨ strapPhase k = .running) :
    1 ≤ k ∧ k ≤ 30 := by
  unfold strapPhase stationValid at h
  split at h
  next hk => simpa using hk
  next => obtain h | h := h <;> cases h

theorem startupLaw : StepLaw (fun c n => (onNode c n).startupHolds) where
  acts _ _ _ _ hk h := hk.startup h
  asserts _ _ _ _ := ⟨(by rintro (h | h) <;> cases h), (by rintro (h | h) <;> cases h)⟩
  powers _ _ _ _ _ := ⟨fun _ => rfl, strapPhase_station⟩
  accepts _ _ _ hp h := ⟨(by rintro (h | h) <;> cases h), fun _ => h.2 (.inl hp)⟩
  refuses _ _ hp h := ⟨fun _ => h.1 (.inl hp), (by rintro (h | h) <;> cases h)⟩

theorem originStartupLaw : StepLaw (fun c n => (onNode c n).originLaw ∧ (onNode c n).startupHolds) where
  acts _ _ _ hl hk h := ⟨hk.origin hl h.2 h.1, hk.startup h.2⟩
  asserts c n pin h := ⟨h.1, startupLaw.asserts c n pin h.2⟩
  powers k w p seen j := ⟨(originLaw_iff _).mpr
    ⟨⟨fun h => absurd rfl h, fun _ _ h => by cases h⟩, fun _ => ⟨rfl, rfl, rfl⟩⟩, startupLaw.powers k w p seen j⟩
  accepts c k n hp h := by
    obtain ⟨horigin, hstart⟩ := h
    obtain ⟨hrecord, hblank⟩ := (originLaw_iff _).mp horigin
    have hstarting : n.seq.stand = .starting := hstart.1 (.inl hp)
    refine ⟨(originLaw_iff _).mpr ⟨hrecord, fun _ => hblank ?_⟩, startupLaw.accepts c k n hp hstart⟩
    exact congrArg StandState.stopped hstarting
  refuses c n hp h := ⟨h.1, startupLaw.refuses c n hp h.2⟩

/-- Settles O7: trip entry alone records, and the exits to QUIET and LOCKOUT's clear blank the record. -/
theorem stepKeepsOriginLaw : Obligations.StepKeepsOriginLaw :=
  fun _ _ ho hs h => originStartupLaw.step
    (P := fun c n => (onNode c n).originLaw ∧ (onNode c n).startupHolds) ⟨ho, hs⟩ h

/-! ## The slots -/

theorem slotStartupLaw : StepLaw (fun c n => (onNode c n).slotLaw ∧ (onNode c n).startupHolds) where
  ticks _ _ _ h := by
    obtain ⟨hslot, hstart⟩ := h
    obtain ⟨honce, hrolling⟩ := (slotLaw_iff _).mp hslot
    refine ⟨(slotLaw_iff _).mpr ⟨slotsOnce_mapFour (fun x => ?_) (fun x => ?_) (fun x i => ?_) honce,
      fun h => ?_⟩, hstart⟩
    · rw [Slot.isActive_eq, Slot.isActive_eq, tickSlot_asActive]; exact fun h => h
    · rw [tickSlot_isPending]; exact fun h => h
    · rw [tickSlot_id]; exact fun h => h
    · exact (slotCount_eq_map tickSlot_isPending).trans (hrolling h)
  acts _ _ _ _ hk h := ⟨hk.slots h.1, hk.startup h.2⟩
  asserts c n pin h := by
    obtain ⟨hslot, hstart⟩ := h
    obtain ⟨honce, hrolling⟩ := (slotLaw_iff _).mp hslot
    refine ⟨(slotLaw_iff _).mpr ⟨slotsOnce_mapFour (fun x => ?_) (fun x => ?_)
      (fun x _ => id_of_dropLoading x) honce, fun h => ?_⟩, startupLaw.asserts c n pin hstart⟩
    · rw [Slot.isActive_eq, Slot.isActive_eq, dropLoading_asActive]; exact fun h => h
    · rw [dropLoading_isPending]; exact fun h => h
    · exact (slotCount_eq_map dropLoading_isPending).trans (hrolling h)
  powers k w p seen j := by
    refine ⟨?_, startupLaw.powers k w p seen j⟩
    exact ⟨Nat.zero_le _, Nat.zero_le _, fun _ => rfl, fun _ => Nat.zero_le _⟩
  accepts c k n hp h := by
    obtain ⟨hslot, hstart⟩ := h
    obtain ⟨honce, hrolling⟩ := (slotLaw_iff _).mp hslot
    have hstarting : n.seq.stand = .starting := hstart.1 (.inl hp)
    refine ⟨(slotLaw_iff _).mpr ⟨honce, fun _ => hrolling ?_⟩, startupLaw.accepts c k n hp hstart⟩
    exact hstarting ▸ StandState.noConfusion
  refuses c n hp h := ⟨h.1, startupLaw.refuses c n hp h.2⟩

/-- Settles O8: a slot is armed, activated or flown by changes that count its ids and states. -/
theorem stepKeepsSlotLaw : Obligations.StepKeepsSlotLaw :=
  fun _ _ hl hs h => slotStartupLaw.step
    (P := fun c n => (onNode c n).slotLaw ∧ (onNode c n).startupHolds) ⟨hl, hs⟩ h

/-! ## The reference -/

/-- A change of the slots that leaves the ACTIVE one as it is, and every record. -/
theorem gapLaw_mapFour {f : Slot → Slot} (ha : ∀ x, (f x).asActive = x.asActive)
    (hr : ∀ x, (f x).record = x.record) {m : Node}
    (hsched : m.sched = { n.sched with slots := mapFour f n.sched.slots }) (hseq : m.seq = n.seq)
    (hbase : m.gap.base = n.gap.base)
    (href : (onNode c m).live → (onNode c n).live ∧ m.gap.reference = n.gap.reference)
    (h : (onNode c n).gapLaw) : (onNode c m).gapLaw := by
  obtain ⟨hvalid, hactive, hwithin⟩ := h
  have hact : m.sched.active = n.sched.active := by rw [hsched]; exact active_mapFour ha _
  refine ⟨?_, ?_, fun hl hstrip i r hi => ?_⟩
  · rw [hsched]
    exact slotsValid_mapFour (fun x r => by rw [hr]; exact fun h => h) hvalid
  · rw [hseq, hact, hbase]; exact hactive
  · rw [(href hl).2]
    exact hwithin (href hl).1 (hseq ▸ hstrip) i r (hact ▸ hi)

theorem gapLawStep : StepLaw (fun c n => (onNode c n).gapLaw) where
  ticks _ _ _ := gapLaw_mapFour tickSlot_asActive tickSlot_record rfl rfl rfl (fun h => ⟨h, rfl⟩)
  acts _ _ _ _ hk h := hk.gap h
  asserts _ _ _ := gapLaw_mapFour dropLoading_asActive dropLoading_record rfl rfl rfl
    (fun h => absurd rfl h)
  powers _ _ _ _ _ := by
    refine ⟨fun x hx r hr => ?_, ?_, fun _ h => by cases h⟩
    · obtain ⟨k, rfl⟩ := mem_listFour.mp hx
      fin_cases k <;> cases hr
    · rintro (h | h | h) <;> cases h
  accepts _ _ _ _ h := by
    obtain ⟨hvalid, _⟩ := h
    refine ⟨hvalid, ?_, fun _ h => by cases h⟩
    rintro (h | h | h) <;> cases h
  refuses _ _ hp h := by
    obtain ⟨hvalid, hactive, hwithin⟩ := h
    exact ⟨hvalid, hactive, fun _ => hwithin (by unfold State.live; rw [hp]; exact StartPhase.noConfusion)⟩

theorem retractLaw : StepLaw (fun c n => (onNode c n).retractHeld) where
  acts _ _ _ _ hk h := hk.retract h
  asserts _ _ _ _ := fun hl => absurd rfl hl
  powers _ _ _ _ _ := fun _ h => by cases h
  accepts _ _ _ _ _ := fun _ h => by cases h
  refuses _ _ hp h := fun _ => h (by unfold State.live; rw [hp]; exact StartPhase.noConfusion)

/-- Settles O9: every change of the reference in a strip state is clamped, and trip entry retracts. -/
theorem stepKeepsReferenceLaws : Obligations.StepKeepsReferenceLaws :=
  fun _ _ h => ⟨fun hs => gapLawStep.step (P := fun c n => (onNode c n).gapLaw) hs h,
    fun hs => retractLaw.step (P := fun c n => (onNode c n).retractHeld) hs h⟩

/-! ## The cache -/

theorem cacheLawStep : StepLaw (fun c n => (onNode c n).cacheLaw) where
  ticks _ _ _ h := fillLaw_congr rfl rfl (fun _ hw _ => hw) h
  acts _ _ _ hl hk h := hk.cache hl h
  asserts _ _ _ h := ⟨h.1, .nil, (fun _ ht => by cases ht), fun hl => absurd rfl hl⟩
  powers _ _ _ _ _ := fillLaw_invalid rfl (Nat.zero_le 1) rfl
  accepts _ _ _ hp h := by
    obtain ⟨hways, hnodup, hcached, hwanted⟩ := h
    exact ⟨hways, hnodup, hcached, fun _ => hwanted (by unfold State.live; rw [hp]; exact StartPhase.noConfusion)⟩
  refuses _ _ hp h := by
    obtain ⟨hways, hnodup, hcached, hwanted⟩ := h
    exact ⟨hways, hnodup, hcached, fun _ => hwanted (by unfold State.live; rw [hp]; exact StartPhase.noConfusion)⟩

/-- Settles O11: a fill joins the queue only for a tag neither cached nor queued. -/
theorem stepKeepsCacheLaw : Obligations.StepKeepsCacheLaw :=
  fun _ _ hs h => cacheLawStep.step (P := fun c n => (onNode c n).cacheLaw) hs h

/-! ## A reset (R188) -/

theorem resetLawStep : StepLaw (fun c n => (onNode c n).resetLaw) where
  ticks _ n _ h := by
    obtain ⟨hqueue, hreading, hleft⟩ := h
    refine ⟨hqueue, ?_, fun r hr => ?_⟩
    · change (Option.map _ n.startup.imageRead).isSome = true ↔ _
      rw [Option.isSome_map]; exact hreading
    · obtain ⟨q, hq, rfl⟩ := Option.map_eq_some_iff.mp hr
      obtain ⟨hl, hb, hm⟩ := hleft q hq
      exact ImageRead.tick_bounds _ q hl hb hm
  acts _ _ _ hl hk h := by
    obtain ⟨_, hreading, hleft⟩ := h
    refine ⟨fun hp => absurd (hk.phase.symm.trans hp) hl, ?_, ?_⟩
    · rw [hk.phase, hk.image]; exact hreading
    · rw [hk.image]; exact hleft
  asserts _ _ _ _ := ⟨fun _ => rfl, ⟨(fun h => by cases h), (fun h => by cases h)⟩, (fun _ h => by cases h)⟩
  powers k _ _ _ _ := by
    refine ⟨fun _ => rfl, ?_, fun r hr => ?_⟩
    · change (if strapPhase k = .reading then some ImageRead.first else none).isSome = true ↔ _
      split
      next hp => exact ⟨fun _ => hp, fun _ => rfl⟩
      next hp => exact ⟨(fun h => by cases h), fun h => absurd h hp⟩
    · change (if strapPhase k = .reading then some ImageRead.first else none) = some r at hr
      split at hr
      · cases hr; decide
      · cases hr
  accepts _ _ _ _ _ := ⟨(fun h => by cases h), ⟨(fun h => by cases h), (fun h => by cases h)⟩, (fun _ h => by cases h)⟩
  refuses _ _ _ _ := ⟨(fun h => by cases h), ⟨(fun h => by cases h), (fun h => by cases h)⟩, (fun _ h => by cases h)⟩

/-- What a command does to a machine in a reset: at most the levels of the input lines change. -/
def OnlyLines (r : Result) (s : State) : Prop :=
  ∃ t, r = .next t ∧ t.settings = s.settings ∧ t.paramMem = s.paramMem ∧
    t.pending = s.pending ∧ t.node = { s.node with pins := t.node.pins }

section
variable (hl : ¬ s.live)
include hl

theorem onlyLines_act (g : Settings → Node → Node) : OnlyLines (s.act g) s :=
  ⟨s, State.act_reset _ _ hl, rfl, rfl, rfl, rfl⟩

theorem onlyLines_input (p : Pins) (g : Settings → Pins → Node → Node) : OnlyLines (s.input p g) s :=
  ⟨_, State.input_reset _ _ _ hl, rfl, rfl, rfl, rfl⟩

theorem not_reading_of_reset : s.node.startup.phase ≠ .reading := by
  unfold State.live at hl
  rw [not_not.mp hl]
  exact StartPhase.noConfusion

end

/-- In a reset every other command leaves all but the lines. -/
theorem onlyLines_of_reset (i : Instr) (hl : ¬ s.live) (hr : s.resetLaw) (hassert : ∀ pin, i ≠ .resetAssert pin)
    (hend : ∀ station wp, i ≠ .resetEnd station wp) : OnlyLines (exec i s) s := by
  have hqueue : s.node.gap.queue = [] := hr.1 (not_not.mp hl)
  cases i with simp only [exec]
  | resetAssert pin => exact absurd rfl (hassert pin)
  | resetEnd station wp => exact absurd rfl (hend station wp)
  | configReadEnd | configReadTimeout =>
    exact ⟨s, congrArg Host.Outcome.next (if_neg (not_reading_of_reset hl)), rfl, rfl, rfl, rfl⟩
  | fillComplete record =>
    refine ⟨s, ?_, rfl, rfl, rfl, rfl⟩
    simp only [execFillComplete, fillInService, hqueue]
  | coefWriteComplete =>
    refine ⟨s, ?_, rfl, rfl, rfl, rfl⟩
    simp only [execCoefWriteComplete, hqueue]
  | carrierLock | carrierLoss | measuringChange | encoderPulse | tripLineChange | loopOpen | loopClosing
  | servoFlt => exact onlyLines_input hl _ _
  | _ => exact onlyLines_act hl _

/-- Settles O17: outside the two rows of a reset a command acts outside a reset only. -/
theorem resetHoldsTheNode : Obligations.ResetHoldsTheNode :=
  ⟨fun i _ => onlyLines_of_reset i,
    fun _ _ hs h => resetLawStep.step (P := fun c n => (onNode c n).resetLaw) hs h⟩

end Sys2Proof.Machine
end

section
/-! SUPPORT. The machine's step, the state after a reset, and the rows of start-up (R188 to R192). -/

namespace Sys2Proof.Machine

set_option Elab.async false

variable {s t : State}

/-! ## The step -/

/-- Settles O1: a step of a machine with a command waiting is that command's meaning. -/
theorem stepRunsFrontCommand : Obligations.StepRunsFrontCommand := fun _ _ _ => rfl

theorem idle_reset (hl : ¬ s.live) : s.idle = s := if_pos (by simpa [State.live, State.inReset] using hl)

theorem idle_place (hl : s.live) (hd : dueEvents s.settings s.node ≠ []) :
    s.idle = s.place (dueEvents s.settings s.node) := by
  unfold State.idle
  rw [if_neg (by simpa [State.inReset, State.live] using hl)]
  split
  next h => exact absurd h hd
  next => rfl

theorem idle_tick (hl : s.live) (hd : dueEvents s.settings s.node = []) : s.idle = s.tick := by
  unfold State.idle
  rw [if_neg (by simpa [State.inReset, State.live] using hl), hd]

theorem place_pending_of_empty (xs : List Instr) (hq : s.pending = []) : (s.place xs).pending.Perm xs := by
  obtain ⟨ys, hperm, hys⟩ := place_pending xs s
  rw [hys, hq]
  exact hperm

theorem step_idle (hq : s.pending = []) : step s = .next s.idle := by
  unfold step
  rw [hq]

/-- A millisecond reaches the timers, the clock and the free index only. -/
theorem tickNode_keepsBut (n : Node) (k : Nat) :
    n.keepsBut [.memb, .gap, .sched, .startup, .clock, .freeIndex] { tickNode n with freeIndex := k } := by
  intro b hb
  cases b with
  | memb | gap | sched | startup | clock | freeIndex => simp at hb
  | _ => rfl

/-- Settles O2: an idle step stands still in a reset, places what is due, or else ticks. -/
theorem emptyQueueLetsTimePass : Obligations.EmptyQueueLetsTimePass := by
  intro s hq
  refine ⟨s.idle, s.idle.node.freeIndex, step_idle hq, ?_⟩
  by_cases hl : s.live
  case neg =>
    rw [idle_reset hl]
    exact ⟨rfl, rfl, fun _ => rfl, fun h => absurd h hl, fun h => absurd h hl⟩
  by_cases hd : dueEvents s.settings s.node = []
  · rw [idle_tick hl hd]
    exact ⟨rfl, rfl, fun h => absurd hl h, fun _ h => absurd hd h, fun _ _ =>
      ⟨rfl, rfl, rfl, rfl, tickNode_keepsBut s.node _, place_pending_of_empty (s := s.withNode _) _ hq⟩⟩
  · rw [idle_place hl hd]
    exact ⟨rfl, rfl, fun h => absurd hl h, fun _ _ => ⟨rfl, place_pending_of_empty _ hq⟩,
      fun _ h => absurd h hd⟩

/-- A law that every power-on state has, the reset state has. -/
theorem StepLaw.reset {P : Settings → Node → Prop} (L : StepLaw P) : P State.reset.settings State.reset.node :=
  L.powers 1 false Pins.initial true 0

/-- Settles O5: the laws hold where a reset ends, and the rest is read off the power-on values. -/
theorem resetStateSatisfiesLaws : Obligations.ResetStateSatisfiesLaws := by
  have hlaws := originStartupLaw.reset
  refine ⟨rfl, rfl, rfl, rfl, rfl, rfl, rfl, rfl, rfl, rfl, resetLawStep.reset, rfl, rfl, ?_,
    countersLaw.reset, hlaws.2, retractLaw.reset, hlaws.1, (bounded_iff _).mpr sizedLaw.reset,
    slotStartupLaw.reset.1, gapLawStep.reset, conservedLaw.reset, cacheLawStep.reset, rfl⟩
  exact powerOn_served _ _

/-! ## The memory of an abandoned write (R188) -/

/-- A write of a byte leaves what any other address reads as, in its canonical form or not. -/
theorem memRead_memWrite_ne (m : List Host.Cell) {a x : Nat} (b : Byte) (hx : x ≠ a) :
    memRead (memWrite m a b) x = memRead m x := by
  induction m with
  | nil =>
    unfold memWrite
    split
    · rfl
    · exact if_neg hx.symm
  | cons cell rest ih =>
    obtain ⟨k, v⟩ := cell
    unfold memWrite
    split
    · split
      · rfl
      · exact if_neg hx.symm
    · split
      next hak =>
        have hrest : memRead ((k, v) :: rest) x = memRead rest x := if_neg (hak ▸ hx.symm)
        split
        · exact hrest.symm
        · exact (if_neg hx.symm).trans hrest.symm
      next => simp only [memRead, ih]

theorem memRead_memWriteBytes_outside {x : Nat} (bs : List Byte) : ∀ (m : List Host.Cell) (a : Nat),
    x < a ∨ a + bs.length ≤ x → memRead (memWriteBytes m a bs) x = memRead m x := by
  induction bs with
  | nil => exact fun _ _ _ => rfl
  | cons b bs ih =>
    intro m a hx
    simp only [List.length_cons] at hx
    exact (ih _ (a + 1) (by omega)).trans (memRead_memWrite_ne m b (by omega))

theorem writeInService_iff {n : Node} {r : CoefRecord} :
    writeInService n = some r ↔ ∃ e ops, n.gap.queue = .write r e :: ops := by
  unfold writeInService
  split
  next r' e ops hq => simp [hq]
  next hq =>
    refine ⟨fun h => (by cases h), fun ⟨e, ops, h⟩ => ?_⟩
    exact absurd h (hq r e ops)

/-- A reset leaves the memory outside the record of a write in service. -/
theorem memRead_abandonedMem (s : State) (a : Nat) : memRead (abandonedMem s) a = memRead s.paramMem a ∨
    ∃ r e ops, s.node.gap.queue = .write r e :: ops ∧ r.tag.offset ≤ a ∧ a < r.tag.offset + 9 := by
  unfold abandonedMem
  split
  next r hr =>
    obtain ⟨e, ops, hq⟩ := writeInService_iff.mp hr
    by_cases ha : r.tag.offset ≤ a ∧ a < r.tag.offset + 9
    · exact .inr ⟨r, e, ops, hq, ha⟩
    · exact .inl (memRead_memWriteBytes_outside _ _ _ (by
        simp only [abandonedBytes, List.length_map, List.length_range]; omega))
  next => exact .inl rfl

/-- Settles O16: the row is `beginReset`, with the memory as an abandoned write leaves it. -/
theorem resetAssertAbandonsWork : Obligations.ResetAssertAbandonsWork := fun _ s =>
  ⟨_, rfl, rfl, rfl, memRead_abandonedMem s, rfl, rfl, _, rfl⟩

/-! ## The end of a reset -/

theorem stationValid_iff {k : Nat} : stationValid k = true ↔ 1 ≤ k ∧ k ≤ 30 := by
  unfold stationValid
  simp

theorem strapPhase_eq (k : Nat) :
    strapPhase k = if 1 ≤ k ∧ k ≤ 30 then .reading else .invalid :=
  if_congr stationValid_iff rfl rfl

theorem strapPhase_reading {k : Nat} : strapPhase k = .reading ↔ 1 ≤ k ∧ k ≤ 30 := by
  rw [strapPhase_eq]
  split
  next h => exact ⟨fun _ => h, fun _ => rfl⟩
  next h => exact ⟨fun k => (by cases k), fun k => absurd k h⟩

/-- Settles O18: the row powers the node on and reads the straps. -/
theorem resetEndPowersOn : Obligations.ResetEndPowersOn := fun _ _ _ =>
  ⟨_, rfl, rfl, rfl, rfl, rfl, rfl, strapPhase_eq _, rfl, rfl, rfl, if_congr strapPhase_reading rfl rfl,
    rfl, rfl, rfl, rfl, rfl, rfl, rfl, rfl, rfl, rfl⟩

/-! ## The configuration read -/

theorem exec_configReadEnd_reading (image : MemRead) (hp : s.node.startup.phase = .reading) :
    exec (.configReadEnd image) s = .next
      (judgeImage (memReadBytes (memTake s.paramMem 0 90 image) 0 90) (s.withImage image)) :=
  congrArg Host.Outcome.next (if_pos hp)

theorem judgeImage_refused {im : List Byte} (h : imageAccepted s.settings.station im = false) :
    judgeImage im s = s.withNode (endInvalid s.node) := if_neg (by rw [h]; exact Bool.false_ne_true)

theorem judgeImage_accepted {im : List Byte} (h : imageAccepted s.settings.station im = true) :
    judgeImage im s = { s with
      settings := { s.settings with config := configOf im }
      node := startRunning { s.settings with config := configOf im } s.node } := if_pos h

/-- Settles O20: the read's end is judged in the phase of the read only. -/
theorem refusedOrAbsentImageEndsInvalid : Obligations.RefusedOrAbsentImageEndsInvalid := by
  refine ⟨fun image s => ⟨fun hp him => ?_, fun hp => ?_⟩, fun s => ⟨fun hp => ?_, fun hp => ?_⟩⟩
  · rw [exec_configReadEnd_reading image hp, judgeImage_refused (s := s.withImage image) him]
    rfl
  · exact congrArg Host.Outcome.next (if_neg hp)
  · exact congrArg Host.Outcome.next (if_pos hp)
  · exact congrArg Host.Outcome.next (if_neg hp)

/-- An offer to a queue with room raises nothing (R14). -/
theorem offer_flt (c : Settings) (n : Node) (o : OwnFrame) (hr : n.ring.insertQueue.length < 16) :
    (offer c o n).flt = n.flt := by
  unfold offer Rep.offer RingPort.place
  cases ha : n.memb.ring.admits o.kind <;> simp [ctxOf, ha, hr]

theorem finish_flt {c : Settings} {n : Node} (h : n.flt.raised = []) : (finish c n).flt = n.flt := by
  unfold finish
  rw [pump_flt, settle_none _ _ h]

/-- Entry to CLAIMING flushes the insert queue, so that its CLAIM finds room (R26). -/
theorem enterClaiming_flt (c : Settings) (n : Node) (h : n.flt.raised = []) :
    (enterClaiming c n).flt = n.flt := by
  unfold enterClaiming offerClaim offerNow
  have hoffer := offer_flt c { n with
    memb := { n.memb with ring := .claiming, lockOk := true, beaconTimer := none }
    ring := RingPort.flush { n.ring with lossCount := 0 } } (claimFrame c) (Nat.zero_lt_succ 15)
  rw [settle_none]
  · exact hoffer
  · exact (congrArg FaultUnit.raised hoffer).trans h

/-- Entry to CLAIMING reaches the phase flags, the ring state and the transmit side (R26). -/
theorem enterClaiming_rest (c : Settings) (n : Node) : ∃ r f, enterClaiming c n = { n with
    memb := { n.memb with ring := .claiming, lockOk := true, beaconTimer := none }, ring := r, flt := f } :=
  ⟨_, _, rfl⟩

/-- The ring's start, once the stand is in QUIET (R25). -/
def claimIfLocked (c : Settings) (n : Node) : Node := if n.memb.carrierLocked then enterClaiming c n else n

theorem claimIfLocked_rest (c : Settings) (n : Node) : ∃ r f, claimIfLocked c n = { n with
    memb := (if n.memb.carrierLocked then
      { n.memb with ring := .claiming, lockOk := true, beaconTimer := none } else n.memb)
    ring := r, flt := f } := by
  unfold claimIfLocked
  split
  · exact enterClaiming_rest c n
  · exact ⟨n.ring, n.flt, rfl⟩

theorem claimIfLocked_flt (c : Settings) (n : Node) (h : n.flt.raised = []) :
    (claimIfLocked c n).flt = n.flt := by
  unfold claimIfLocked
  split
  · exact enterClaiming_flt c n h
  · rfl

/-- The start reaches the transmit side and the ring's membership, beyond the entry to QUIET. -/
theorem startRunning_rest (c : Settings) (n : Node) : ∃ r f, startRunning c n = { enterRunning c n with
    memb := (if n.memb.carrierLocked then
      { n.memb with ring := .claiming, lockOk := true, beaconTimer := none } else n.memb)
    ring := r, flt := f } := by
  obtain ⟨r, f, h⟩ := claimIfLocked_rest c (enterRunning c n)
  have hfinish : startRunning c n = finish c _ := congrArg (finish c) h
  exact ⟨_, _, hfinish⟩

theorem startRunning_flt (c : Settings) (n : Node) (h : n.flt.raised = []) :
    (startRunning c n).flt = { n.flt with budgetCount := 0, budgetExceeded := false } := by
  have hflt := claimIfLocked_flt c (enterRunning c n) h
  exact (finish_flt ((congrArg FaultUnit.raised hflt).trans h)).trans hflt

theorem startRunning_keepsBut (c : Settings) (n : Node) :
    n.keepsBut [.startup, .seq, .gap, .meas, .trip, .memb, .ring, .flt] (startRunning c n) := by
  obtain ⟨r, f, h⟩ := startRunning_rest c n
  rw [h]
  intro b hb
  cases b with
  | startup | seq | gap | meas | trip | memb | ring | flt => simp at hb
  | _ => rfl

/-- Settles O19: the accepted image's entry to QUIET, and after it the ring's start. -/
theorem acceptedImageEntersQuiet : Obligations.AcceptedImageEntersQuiet := by
  intro image s hp mem im him
  refine ⟨_, (exec_configReadEnd_reading image hp).trans
    (congrArg _ (judgeImage_accepted (s := s.withImage image) him)), rfl, rfl, rfl, ?_⟩
  have hflt := startRunning_flt { s.settings with config := configOf im } s.node
  have hkeeps := startRunning_keepsBut { s.settings with config := configOf im } s.node
  obtain ⟨r, f, h⟩ := startRunning_rest { s.settings with config := configOf im } s.node
  exact ⟨congrArg Node.startup h, congrArg Node.seq h, congrArg Node.gap h, congrArg Node.meas h,
    congrArg Node.trip h, congrArg Node.memb h, hkeeps, hflt⟩

end Sys2Proof.Machine
end

section
/-! SUPPORT. What is written is what is read back: frames (R4, R5) and coefficient records (R150, R198); and the
rows that stand for a delivered frame (R11, R49). -/

namespace Sys2Proof.Machine

set_option Elab.async false

/-! ## Numbers as bytes -/

theorem toNat_byte {k : Nat} (h : k < 256) : (byte k).toNat = k := by
  rw [byte, BitVec.toNat_ofNat, Nat.mod_eq_of_lt h]

theorem byte_toNat (b : Byte) : byte b.toNat = b := by
  rw [byte, BitVec.ofNat_toNat, BitVec.setWidth_eq]

theorem half_natBytes {k : Nat} (h : k < 65536) (a b : Byte) (hab : natBytes k = [a, b]) :
    (half a b).toNat = k := by
  cases hab
  rw [half_bytes, BitVec.toNat_ofNat, Nat.mod_eq_of_lt h]

theorem toInt_ofInt_half {i : Int} (lo : -32768 ≤ i) (hi : i ≤ 32767) : (BitVec.ofInt 16 i).toInt = i := by
  rw [BitVec.toInt_ofInt]
  exact Int.bmod_eq_of_le (by omega) (by omega)

/-! ## Frames -/

theorem FrameKind.ofCode_code (k : FrameKind) : FrameKind.ofCode k.code = some k := by cases k <;> rfl

theorem flagByte_getLsbD (b : Bool) : (flagByte b).getLsbD 0 = b := by cases b <;> rfl

/-- The two last bytes are the check that was sent. -/
theorem receivedCheck_append (xs : List Byte) (w : Half) : receivedCheck (xs ++ halfBytes w) = some w := by
  simp only [receivedCheck, halfBytes, List.reverse_append, List.reverse_cons, List.reverse_nil, List.nil_append,
    List.cons_append, half_bytes]

theorem take_append_halfBytes (xs : List Byte) (w : Half) :
    (xs ++ halfBytes w).take ((xs ++ halfBytes w).length - 2) = xs := by
  rw [List.length_append, show (halfBytes w).length = 2 from rfl, Nat.add_sub_cancel, List.take_left]

/-- A body sent with its check is judged by its fields. -/
theorem judgeArrival_checked {body : List Byte} {f : Frame} (h : parseBody body = some f) :
    judgeArrival (body ++ halfBytes (checkOf body)) = .intact f := by
  unfold judgeArrival
  dsimp only
  rw [take_append_halfBytes, receivedCheck_append, if_neg (not_not.mpr rfl), h]

theorem parseBody_body {f : Frame} (hs : 1 ≤ f.source.toNat ∧ f.source.toNat ≤ 30)
    (hd : 1 ≤ f.dest.toNat ∧ f.dest.toNat ≤ 31) (hh : f.hop ≤ 32) (hp : f.payload.length ≤ 48)
    (ha : payloadAdmitted f.kind f.payload = true) : parseBody f.body = some f := by
  have hhop : (byte f.hop).toNat = f.hop := toNat_byte (by omega)
  have hlen : (byte f.payload.length).toNat = f.payload.length := toNat_byte (by omega)
  simp only [parseBody, Frame.body, FrameKind.ofCode_code, hhop, hlen, hs, hd, hh, ha, flagByte_getLsbD,
    decide_true, Bool.and_self, if_true]

/-- Settles O14: the check is that of the body, and every field of the body reads back. -/
theorem sentFrameIsReadBack : Obligations.SentFrameIsReadBack := by
  intro f hs hs' hd hd' hh hp ha
  exact judgeArrival_checked (parseBody_body ⟨hs, hs'⟩ ⟨hd, hd'⟩ hh hp ha)

/-! ## Coefficient records -/

theorem CoefRecord.inRange_iff {r : CoefRecord} : r.inRange = true ↔
    r.tag.pclass ≤ 63 ∧ r.tag.band ≤ 7 ∧ -2000 ≤ r.ff ∧ r.ff ≤ 2000 ∧ r.mon ≤ 1000 := by
  simp only [CoefRecord.inRange, Bool.and_eq_true, decide_eq_true_eq, and_assoc]

theorem recordRead_bytes {r : CoefRecord} (hr : r.inRange = true) : recordRead r.tag r.bytes = some r := by
  obtain ⟨hclass, hband, hlow, hhigh, hmon⟩ := CoefRecord.inRange_iff.mp hr
  obtain ⟨⟨pclass, band⟩, ff, mon⟩ := r
  have hc : (byte pclass).toNat = pclass := toNat_byte (by simp only at hclass; omega)
  have hb : (byte band).toNat = band := toNat_byte (by simp only at hband; omega)
  have hff : (BitVec.ofInt 16 ff).toInt = ff :=
    toInt_ofInt_half (by simp only at hlow; omega) (by simp only at hhigh; omega)
  have hm : (BitVec.ofNat 16 mon).toNat = mon := by
    rw [BitVec.toNat_ofNat, Nat.mod_eq_of_lt (by simp only at hmon; omega)]
  simp only [recordRead, CoefRecord.bytes, CoefRecord.value, intBytes, natBytes, halfBytes, List.cons_append,
    List.nil_append, half_bytes, hc, hb, hff, hm, hr, decide_true]
  rfl

/-- Settles O15: the nine bytes that are written are those that are read, and no others. -/
theorem storedCoefficientIsReadBack : Obligations.StoredCoefficientIsReadBack := by
  intro m r hm hr
  have hback : memReadBytes (memWriteBytes m r.tag.offset r.bytes) r.tag.offset 9 = r.bytes :=
    memReadBytes_memWriteBytes r.bytes m r.tag.offset hm
  refine ⟨by rw [hback]; exact recordRead_bytes hr, fun a ha => ?_⟩
  exact memRead_memWriteBytes_outside r.bytes m _ ha

/-! ## Rows of delivered frames -/

/-- Settles O37: each row hands on the write that its object and value make. -/
theorem objectWriteIsItsRow : Obligations.ObjectWriteIsItsRow :=
  fun _ _ _ _ _ _ => ⟨rfl, rfl, rfl, rfl, rfl, rfl, rfl, rfl, rfl, rfl, rfl, rfl, rfl⟩

variable {s : State} {h : Header}

/-- An act that leaves the node leaves all but what waits on the transmit side. -/
theorem act_unchanged {g : Settings → Node → Node} (hl : s.live) (hg : g s.settings s.node = s.node) :
    ∃ t, s.act g = .next t ∧ s.keepsBut [.ring, .flt] t ∧ s.offers [] t :=
  ⟨_, State.act_live _ _ hl, keepsBut_finish (by rw [hg]; exact Node.keepsBut_refl _) (by decide) (by decide),
    offers_nil (by rw [hg]) (by rw [hg])⟩

section Undelivered
variable (hh : ¬ s.hands h)
include hh

theorem writeArrives_undelivered (index : Byte) (value : List Byte) :
    writeArrives s.settings h index value s.node = s.node := if_neg hh

theorem readArrives_undelivered (index arg1 arg2 : Byte) :
    readArrives s.settings h index arg1 arg2 s.node = s.node := if_neg hh

theorem schedArrives_undelivered (f : Node → Node) : schedArrives s.settings h f s.node = s.node := by
  unfold schedArrives
  rw [if_pos (by simpa [State.hands] using hh)]

end Undelivered

/-- Settles O31: each such row asks first whether the frame is handed on. -/
theorem undeliveredCommandHasNoEffect : Obligations.UndeliveredCommandHasNoEffect := by
  intro i h s hl hi hh
  cases i with simp only [exec]
  | beaconReceived | segReceived | markReceived | tripReceived =>
    cases hi
    exact act_unchanged hl (if_neg hh)
  | coefEntryRead =>
    cases hi
    exact act_unchanged hl (readArrives_undelivered hh _ _ _)
  | schedOpen | schedSection | schedClose =>
    cases hi
    exact act_unchanged hl (schedArrives_undelivered hh _)
  | objectWrite | standCommandPreset | standCommandQuiet | nextSchedule | slotFree | gapTrim | ffEnable
  | monitorEnable | coefEntryWrite | tripClearStation | tripClearAll | faultCountsClear | faultSummaryClear
  | nodeReset =>
    cases hi
    exact act_unchanged hl (writeArrives_undelivered hh _ _)
  | _ => cases hi

end Sys2Proof.Machine
end

section
/-! SUPPORT. The arrival of a frame (R5 to R12): its judgement, its forwarding, and the row of its kind. -/

namespace Sys2Proof.Machine

set_option Elab.async false

variable {s : State} {bytes : List Byte} {f : Frame}

/-! ## Effects of a row that is one shared operation -/

/-- A row whose act is a CORRECTABLE fault, and nothing else. -/
theorem act_raises {g : Settings → Node → Node} {code : FaultCode} (hl : s.live)
    (hg : g s.settings s.node = raise s.settings code s.node)
    (hc : code.cls s.node.seq.stand = .correctable) :
    ∃ t, s.act g = .next t ∧ s.keepsBut [.ring, .flt] t ∧ s.reports code s.node t := by
  refine ⟨_, State.act_live _ _ hl, ?_, ?_⟩
  · rw [hg]; exact keepsBut_raise (Node.keepsBut_refl _) (by decide) (by decide) hc
  · rw [hg]; exact reports_raise hc rfl rfl rfl rfl rfl

section Rows
variable (h : Header) (s : State)

theorem exec_frameArrival (bytes : List Byte) :
    exec (.frameArrival bytes) s = s.act (fun c n => frameArrives c bytes n) := rfl

theorem exec_beaconRow (p : BeaconPayload) :
    exec (.beaconReceived h p) s = s.act (fun c n => beaconArrives c h p n) := rfl

theorem exec_segRow (p : SegPayload) : exec (.segReceived h p) s = s.act (fun c n => segArrives c h p n) := rfl

theorem exec_markRow (p : MarkPayload) : exec (.markReceived h p) s = s.act (fun c n => markArrives c h p n) := rfl

theorem exec_tripRow (p : TripPayload) : exec (.tripReceived h p) s = s.act (fun c n => tripArrives c h p n) := rfl

theorem exec_writeRow (index : Byte) (value : List Byte) :
    exec (.objectWrite h index value) s = s.act (fun c n => writeArrives c h index value n) := rfl

theorem exec_coefReadRow (pclass band : Byte) :
    exec (.coefEntryRead h pclass band) s = s.act (fun c n => readArrives c h 13 pclass band n) := rfl

theorem exec_schedOpenRow (id count : Byte) : exec (.schedOpen h id count) s =
    s.act (fun c n => schedArrives c h (schedOpened c h id count) n) := rfl

theorem exec_schedSectionRow (id number : Byte) (content : List Byte) :
    exec (.schedSection h id number content) s =
      s.act (fun c n => schedArrives c h (schedSectionTaken c h id number content) n) := rfl

theorem exec_schedCloseRow (id : Byte) (check : Half) : exec (.schedClose h id check) s =
    s.act (fun c n => schedArrives c h (schedClosed c h id check) n) := rfl

end Rows

/-! ## Bad frames (R5) -/

theorem frameArrives_badCheck (c : Settings) (n : Node) (hj : judgeArrival bytes = .badCheck) :
    frameArrives c bytes n = raise c .frameCheck n := by
  simp only [frameArrives, hj]

theorem frameArrives_badForm (c : Settings) (n : Node) (hj : judgeArrival bytes = .badForm) :
    frameArrives c bytes n = raise c .frameForm n := by
  simp only [frameArrives, hj]

theorem frameArrives_intact (c : Settings) (n : Node) (hj : judgeArrival bytes = .intact f) :
    frameArrives c bytes n = intactFrame c f n := by
  simp only [frameArrives, hj]

/-- Settles O22: both judgements raise a fault that is CORRECTABLE in every stand state. -/
theorem badFrameIsDiscarded : Obligations.BadFrameIsDiscarded := fun bytes _ hl =>
  ⟨fun hj => act_raises (g := fun c n => frameArrives c bytes n) hl (frameArrives_badCheck _ _ hj) rfl,
    fun hj => act_raises (g := fun c n => frameArrives c bytes n) hl (frameArrives_badForm _ _ hj) rfl⟩

/-! ## Forwarding (R10, R12) -/

theorem forward_orphan (c : Settings) (n : Node) (hh : 32 ≤ f.hop + 1) :
    forward c f n = raise c .orphanRemoved n := if_pos (decide_eq_true hh)

theorem forward_overrun (c : Settings) (n : Node) (hh : ¬ 32 ≤ f.hop + 1)
    (hp : ¬ n.ring.passBuffer.length < 6) : forward c f n = raise c .passOverrun n := by
  unfold forward
  rw [if_neg (by simpa [isOrphan] using hh), if_neg hp]

/-- Given a busy link, the frame is the last to pass through. -/
theorem forward_room (c : Settings) (n : Node) (hh : f.hop + 1 < 32) (hp : n.ring.passBuffer.length < 6)
    (hb : n.ring.sending.isSome = true) : forward c f n = { n with ring := { n.ring with
      passBuffer := n.ring.passBuffer ++ [{ f with hop := f.hop + 1 }] } } := by
  rw [forward_passes c hh hp, pump_busy c _ (by exact hb)]

/-- Forwarding keeps what a delivery looks at. -/
theorem forward_kept (c : Settings) (f : Frame) (n : Node) : (forward c f n).memb = n.memb ∧
    (forward c f n).seq = n.seq ∧ (forward c f n).track = n.track := by
  unfold forward
  split
  · exact ⟨raise_memb _ _ _ rfl, raise_seq _ _ _ rfl, raise_track _ _ _ rfl⟩
  · split
    · exact ⟨rfl, rfl, rfl⟩
    · exact ⟨raise_memb _ _ _ rfl, raise_seq _ _ _ rfl, raise_track _ _ _ rfl⟩

theorem forward_passes_keepsBut (c : Settings) (n : Node) (hh : f.hop + 1 < 32)
    (hp : n.ring.passBuffer.length < 6) : n.keepsBut [.ring, .flt] (forward c f n) := by
  rw [forward_passes c hh hp]
  intro b hb
  cases b with
  | ring => simp at hb
  | _ => rfl

/-- A row whose act is to forward a frame that passes. -/
theorem act_passes {g : Settings → Node → Node} (hl : s.live)
    (hg : g s.settings s.node = forward s.settings f s.node) (hh : f.hop + 1 < 32)
    (hp : s.node.ring.passBuffer.length < 6) :
    ∃ t, s.act g = .next t ∧ s.keepsBut [.ring, .flt] t ∧ (s.roomFor 0 → t.node.flt = s.node.flt ∧
      t.node.ring = { s.node.ring with
        passBuffer := s.node.ring.passBuffer ++ [{ f with hop := f.hop + 1 }] }) := by
  refine ⟨_, State.act_live _ _ hl, ?_, fun hr => ?_⟩
  · rw [hg]; exact keepsBut_finish (forward_passes_keepsBut _ _ hh hp) (by decide) (by decide)
  · obtain ⟨hbusy, hwaits, _⟩ := hr
    rw [hg, forward_room _ _ hh hp hbusy, finish_quiet _ _ (by exact hbusy) (by exact hwaits)]
    exact ⟨rfl, rfl⟩

/-- What R10 and R12 make of a frame that is forwarded and no more. -/
theorem act_forwards {g : Settings → Node → Node} (hl : s.live)
    (hg : g s.settings s.node = forward s.settings f s.node) :
    ∃ t, s.act g = .next t ∧ s.keepsBut [.ring, .flt] t ∧
      (if 32 ≤ f.hop + 1 then s.reports .orphanRemoved s.node t
       else if s.node.ring.passBuffer.length < 6 then
         s.roomFor 0 → t.node.flt = s.node.flt ∧ t.node.ring = { s.node.ring with
           passBuffer := s.node.ring.passBuffer ++ [{ f with hop := f.hop + 1 }] }
       else s.reports .passOverrun s.node t) := by
  by_cases hh : 32 ≤ f.hop + 1
  · simp only [if_pos hh]
    exact act_raises hl (hg.trans (forward_orphan _ _ hh)) rfl
  · by_cases hp : s.node.ring.passBuffer.length < 6
    · simp only [if_neg hh, if_pos hp]
      exact act_passes hl hg (by omega) hp
    · simp only [if_neg hh, if_neg hp]
      exact act_raises hl (hg.trans (forward_overrun _ _ hh hp)) rfl

/-! ## Delivery (R11) -/

/-- A frame that is not handed on reaches no block. -/
theorem deliver_unhanded {c : Settings} {n : Node} (h : handed c f.source f.dest n = false) :
    deliver c f n = n := by
  have hw : ∀ i v, writeArrives c f.header i v n = n := fun i v => if_neg (by rw [Frame.header, h]; simp)
  have hr : ∀ i a b, readArrives c f.header i a b n = n := fun i a b => if_neg (by rw [Frame.header, h]; simp)
  have hs : ∀ g, schedArrives c f.header g n = n := fun g => if_pos (by rw [Frame.header, h]; rfl)
  unfold deliver
  cases f.kind with
  | seg => dsimp only; split; exact if_neg (by rw [Frame.header, h]; simp); rfl
  | mark => dsimp only; split; exact if_neg (by rw [Frame.header, h]; simp); rfl
  | beacon => dsimp only; split; exact if_neg (by rw [Frame.header, h]; simp); rfl
  | trip => dsimp only; split; exact if_neg (by rw [Frame.header, h]; simp); rfl
  | rdreq =>
    dsimp only
    unfold rdreqPayload
    split
    · exact hr _ _ _
    · rfl
  | wrreq =>
    dsimp only
    unfold wrreqPayload
    split
    · exact hw _ _
    · rfl
  | sched =>
    dsimp only
    unfold schedPayload
    split
    · exact hs _
    · exact hs _
    · exact hs _
    · rfl
  | claim | reply | fault | echo => rfl

/-- Nothing is handed on that is for another station, or while the ring hands nothing on (R11). -/
theorem handed_eq_false {c : Settings} {n : Node} {source dest : Byte}
    (h : dest ≠ byte c.station ∧ dest ≠ 31 ∨ n.memb.ring ≠ .seeking ∧ n.memb.ring ≠ .joined) :
    handed c source dest n = false := by
  have hdelivers : n.memb.ring ≠ .seeking ∧ n.memb.ring ≠ .joined → n.memb.ring.delivers = false := by
    rintro ⟨hs, hj⟩
    cases hr : n.memb.ring with
    | seeking => exact absurd hr hs
    | joined => exact absurd hr hj
    | dark | claiming | conflict | broken => rfl
  obtain ⟨hown, hall⟩ | hring := h
  · have hall' : dest ≠ stationAll := hall
    simp [handed, hown, hall']
  · simp [handed, hdelivers hring]

/-- A frame that is forwarded and not handed on (R6, R10, R11). -/
theorem intactFrame_forwards {c : Settings} {n : Node} (h : n.seq.stand = .starting ∨
    (f.source ≠ byte c.station ∧ (f.dest ≠ byte c.station ∧ f.dest ≠ 31 ∨
      n.memb.ring ≠ .seeking ∧ n.memb.ring ≠ .joined ∨ 32 ≤ f.hop + 1))) :
    intactFrame c f n = forward c f n := by
  unfold intactFrame
  split
  next => rfl
  next hstand =>
    obtain hst | ⟨hsource, hwhy⟩ := h
    · exact absurd hst hstand
    rw [if_neg hsource]
    unfold foreignFrame
    split
    next => rfl
    next horphan =>
      obtain ⟨hmemb, _, _⟩ := forward_kept c f n
      refine deliver_unhanded (handed_eq_false ?_)
      rw [hmemb]
      obtain hdest | hring | hhop := hwhy
      · exact .inl hdest
      · exact .inr hring
      · exact absurd (decide_eq_true hhop) horphan

/-- What the row of a frame's kind is given, once the frame has been forwarded. -/
theorem arrives_as {i : Instr} (hl : s.live) (hj : judgeArrival bytes = .intact f)
    (hst : s.node.seq.stand ≠ .starting) (hso : f.source ≠ byte s.settings.station) (hh : f.hop + 1 < 32)
    (hi : exec i (s.withNode (forward s.settings f s.node)) =
      (s.withNode (forward s.settings f s.node)).act (fun c n => deliver c f n)) :
    exec (.frameArrival bytes) s = exec i (s.withNode (forward s.settings f s.node)) :=
  (frameArrival_foreign hj hst hso hh hl).trans hi.symm

section Payloads
variable (c : Settings) (n : Node)

theorem deliver_beacon (p : BeaconPayload) (hk : f.kind = .beacon)
    (hp : f.payload = [p.standIndex, p.standState, p.flags, p.scheduleId] ++ halfBytes p.lastClosed ++
      [p.originStation]) : deliver c f n = beaconArrives c f.header p n := by
  simp only [deliver, hk, hp, halfBytes, List.cons_append, List.nil_append, beaconOfBytes, half_bytes]

theorem deliver_seg (p : SegPayload) (hk : f.kind = .seg)
    (hp : f.payload = halfBytes p.number ++ halfBytes p.coil ++ halfBytes p.deviation ++
        [p.sampleCount, p.flags] ++ halfBytes p.remaining ++ [p.scheduleId, p.standIndex]) :
    deliver c f n = segArrives c f.header p n := by
  simp only [deliver, hk, hp, halfBytes, List.cons_append, List.nil_append, segOfBytes, half_bytes]

theorem deliver_mark (p : MarkPayload) (hk : f.kind = .mark)
    (hp : f.payload = halfBytes p.number ++ halfBytes p.length ++ [p.interval, p.standIndex]) :
    deliver c f n = markArrives c f.header p n := by
  simp only [deliver, hk, hp, halfBytes, List.cons_append, List.nil_append, markOfBytes, half_bytes]

theorem deliver_trip (p : TripPayload) (hk : f.kind = .trip)
    (hp : f.payload = [p.station, p.standIndex, p.causeKind, p.detail] ++ halfBytes p.number) :
    deliver c f n = tripArrives c f.header p n := by
  simp only [deliver, hk, hp, halfBytes, List.cons_append, List.nil_append, tripOfBytes, half_bytes]

theorem deliver_wrreq (index k : Byte) (value : List Byte) (hk : f.kind = .wrreq)
    (hp : f.payload = index :: k :: value) : deliver c f n = writeArrives c f.header index value n := by
  simp only [deliver, hk, hp, wrreqPayload]

theorem deliver_rdreq (index a1 a2 : Byte) (hk : f.kind = .rdreq) (hp : f.payload = [index, a1, a2]) :
    deliver c f n = readArrives c f.header index a1 a2 n := by
  simp only [deliver, hk, hp, rdreqPayload]

theorem deliver_open (id count : Byte) (hk : f.kind = .sched) (hp : f.payload = [1, id, count]) :
    deliver c f n = schedArrives c f.header (schedOpened c f.header id count) n := by
  simp only [deliver, hk, hp, schedPayload]
  rfl

theorem deliver_section (id number : Byte) (content : List Byte) (hk : f.kind = .sched)
    (hp : f.payload = 2 :: id :: number :: content) :
    deliver c f n = schedArrives c f.header (schedSectionTaken c f.header id number content) n := by
  simp only [deliver, hk, hp, schedPayload]
  rfl

theorem deliver_close (id : Byte) (check : Half) (hk : f.kind = .sched)
    (hp : f.payload = [3, id] ++ halfBytes check) :
    deliver c f n = schedArrives c f.header (schedClosed c f.header id check) n := by
  simp only [deliver, hk, hp, schedPayload, halfBytes, List.cons_append, List.nil_append]
  change schedArrives c f.header (schedClosed c f.header id
    (half (check.extractLsb' 8 8) (check.extractLsb' 0 8))) n = _
  rw [half_bytes]

theorem deliver_none (hk : f.kind = .reply ∨ f.kind = .fault ∨ f.kind = .echo ∨ f.kind = .claim) :
    deliver c f n = n := by
  obtain hk | hk | hk | hk := hk <;> simp only [deliver, hk]

end Payloads

/-- Settles O23: a frame is forwarded first, and delivered by its kind where it is handed on. -/
theorem foreignFrameIsForwarded : Obligations.ForeignFrameIsForwarded := by
  refine ⟨fun bytes f s hl hj hwhy => ?_, fun bytes f s hl hj hst hso hh => ?_⟩
  · exact act_forwards (g := fun c n => frameArrives c bytes n) hl
      ((frameArrives_intact _ _ hj).trans (intactFrame_forwards hwhy))
  · have row : ∀ {i g}, exec i (s.withNode (forward s.settings f s.node)) =
        (s.withNode (forward s.settings f s.node)).act g → (∀ c n, deliver c f n = g c n) →
        exec (.frameArrival bytes) s = exec i (s.withNode (forward s.settings f s.node)) :=
      fun hi hg => arrives_as hl hj hst hso hh (hi.trans (congrArg _ (funext₂ hg).symm))
    refine ⟨fun p hk hp => row (exec_beaconRow f.header _ p) (deliver_beacon · · p hk hp), fun p hk hp => row (exec_segRow f.header _ p) (deliver_seg · · p hk hp),
      fun p hk hp => row (exec_markRow f.header _ p) (deliver_mark · · p hk hp), fun p hk hp => row (exec_tripRow f.header _ p) (deliver_trip · · p hk hp),
      fun index value hk hp => row (exec_writeRow f.header _ index value) (deliver_wrreq · · index _ value hk hp),
      fun a b hk hp => row (exec_coefReadRow f.header _ a b) (deliver_rdreq · · _ a b hk hp),
      fun id count hk hp => row (exec_schedOpenRow f.header _ id count) (deliver_open · · id count hk hp),
      fun id number content hk hp => row (exec_schedSectionRow f.header _ id number content) (deliver_section · · id number content hk hp),
      fun id check hk hp => row (exec_schedCloseRow f.header _ id check) (deliver_close · · id check hk hp), fun hk hp => ?_⟩
    refine act_passes (g := fun c n => frameArrives c bytes n) hl ?_ hh hp
    have horphan : isOrphan f = false := by simp only [isOrphan, decide_eq_false_iff_not]; omega
    simp only [frameArrives_intact _ _ hj, intactFrame, if_neg hst, if_neg hso, foreignFrame, horphan,
      Bool.false_eq_true, if_false, deliver_none _ _ hk]

end Sys2Proof.Machine
end

section
/-! SUPPORT. Ways to say what a row does: the blocks it keeps, read off the node it makes, and the rows of the
Object Directory that are one answer (R47 to R56). -/

namespace Sys2Proof.Machine

set_option Elab.async false

/-! ## The blocks kept -/

/-- The node `n` with the parts that are listed taken from `m`. -/
def Node.overlay (bs : List Block) (n m : Node) : Node :=
  let pick {α : Type} (b : Block) (f : Node → α) : α := bif bs.elem b then f m else f n
  { ring := pick .ring Node.ring, memb := pick .memb Node.memb, dir := pick .dir Node.dir
    meas := pick .meas Node.meas, track := pick .track Node.track, seq := pick .seq Node.seq
    sched := pick .sched Node.sched, gap := pick .gap Node.gap, trip := pick .trip Node.trip
    flt := pick .flt Node.flt, startup := pick .startup Node.startup, pins := pick .pins Node.pins
    clock := pick .clock Node.clock, freeIndex := pick .freeIndex Node.freeIndex }

/-- A node keeps what is not listed where it is the first with the listed parts replaced. -/
theorem Node.keepsBut_of_overlay {bs : List Block} {n m : Node} (h : m = n.overlay bs m) : n.keepsBut bs m := by
  intro b hb
  have hpick {α : Type} (x y : α) : (bif bs.elem b then x else y) = y := by
    rw [show bs.elem b = false by simpa using hb]; rfl
  cases b with
  | ring => exact (congrArg Node.ring h).trans (hpick _ _)
  | memb => exact (congrArg Node.memb h).trans (hpick _ _)
  | dir => exact (congrArg Node.dir h).trans (hpick _ _)
  | meas => exact (congrArg Node.meas h).trans (hpick _ _)
  | track => exact (congrArg Node.track h).trans (hpick _ _)
  | seq => exact (congrArg Node.seq h).trans (hpick _ _)
  | sched => exact (congrArg Node.sched h).trans (hpick _ _)
  | gap => exact (congrArg Node.gap h).trans (hpick _ _)
  | trip => exact (congrArg Node.trip h).trans (hpick _ _)
  | flt => exact (congrArg Node.flt h).trans (hpick _ _)
  | startup => exact (congrArg Node.startup h).trans (hpick _ _)
  | pins => exact (congrArg Node.pins h).trans (hpick _ _)
  | clock => exact (congrArg Node.clock h).trans (hpick _ _)
  | freeIndex => exact (congrArg Node.freeIndex h).trans (hpick _ _)

variable {s : State} {h : Header} {m : Node} {bs : List Block}

/-- The end of a command that only changes blocks of the node, with nothing offered. -/
theorem acted_quietly (hk : s.node.keepsBut bs m) (hring : Block.ring ∈ bs := by decide)
    (hflt : Block.flt ∈ bs := by decide) (hr : m.ring = s.node.ring := by rfl)
    (hf : m.flt = s.node.flt := by rfl) :
    s.keepsBut bs (s.withNode (finish s.settings m)) ∧ s.offers [] (s.withNode (finish s.settings m)) :=
  ⟨keepsBut_finish hk hring hflt, offers_nil hr hf⟩

/-- The end of a command that changes blocks of the node and is then answered. -/
theorem acted_answered (hh : s.hands h) (index : Nat) (status : Status) (hk : s.node.keepsBut bs m)
    (hring : Block.ring ∈ bs := by decide) (hflt : Block.flt ∈ bs := by decide)
    (hr : m.ring = s.node.ring := by rfl) (hf : m.flt = s.node.flt := by rfl)
    (hm : m.memb.ring = s.node.memb.ring := by rfl) :
    let t := s.withNode (finish s.settings (answer s.settings h index status m))
    s.keepsBut bs t ∧ s.offers [answerFrame h (byte index) status.code] t :=
  ⟨keepsBut_answer hk hring hflt, offers_answer hh hr hf hm rfl⟩

/-- The end of a write that is taken DONE and echoed. -/
theorem acted_echoed (hh : s.hands h) (index : Nat) (value : List Byte) (hk : s.node.keepsBut bs m)
    (hring : Block.ring ∈ bs := by decide) (hflt : Block.flt ∈ bs := by decide)
    (hdir : Block.dir ∈ bs := by decide)
    (hr : m.ring = s.node.ring := by rfl) (hf : m.flt = s.node.flt := by rfl)
    (hm : m.memb.ring = s.node.memb.ring := by rfl) :
    let t := s.withNode (finish s.settings (answerEchoed s.settings h index value m))
    s.keepsBut bs t ∧
      s.offers (answerFrame h (byte index) 0 :: echoOffered (m.dir.changed.get index) (byte index) value) t :=
  ⟨keepsBut_answerEchoed hk hring hflt hdir, offers_answerEchoed hh hr hf hm rfl⟩

/-- A flag that is set already is not changed by being set. -/
theorem ChangedFlags.set_of_get {f : ChangedFlags} {i : Nat} (h : f.get i = true) : f.set i = f := by
  obtain ⟨a, b, d, e⟩ := f
  unfold ChangedFlags.get at h
  unfold ChangedFlags.set
  split at h
  · cases h; rfl
  · cases h; rfl
  · cases h; rfl
  · cases h; rfl
  · cases h

/-- An echoed answer touches the changed flags and the transmit side. -/
theorem answerEchoed_rest (c : Settings) (h : Header) (i : Nat) (v : List Byte) (n : Node) : ∃ r f,
    answerEchoed c h i v n = { n with
      dir := { n.dir with changed := n.dir.changed.set i }, ring := r, flt := f } := by
  have hdir := answerEchoed_dir c h i v n ChangedFlags.set_of_get
  unfold answerEchoed echo at hdir ⊢
  split at hdir
  next hg =>
    rw [if_pos hg]
    exact ⟨_, _, congrArg (fun d => { answer c h i .done n with dir := d }) hdir⟩
  next hg =>
    rw [if_neg hg]
    exact ⟨_, _, rfl⟩

/-! ## Frames offered one after the other -/

/-- The transmit side of a node once frames have joined the insert queue of a machine, and nothing more. -/
def State.sent (s : State) (fs : List OwnFrame) (m : Node) : Prop :=
  m.flt = s.node.flt ∧ m.ring = { s.node.ring with insertQueue := s.node.ring.insertQueue ++ fs }

theorem State.sent_nil (hr : m.ring = s.node.ring := by rfl) (hf : m.flt = s.node.flt := by rfl) :
    s.sent [] m := ⟨hf, by rw [hr, List.append_nil]⟩

theorem State.roomFor.le {j k : Nat} (h : s.roomFor k) (hjk : j ≤ k) : s.roomFor j := by
  obtain ⟨hb, hw, hq⟩ := h
  exact ⟨hb, hw, by omega⟩

section Sent
variable {fs : List OwnFrame} (hs : s.sent fs m) (hr : s.roomFor fs.length)
include hs hr

theorem State.sent.busy : m.ring.sending.isSome = true := by rw [hs.2]; exact hr.1

theorem State.sent.waits : m.flt.raised = [] := by rw [hs.1]; exact hr.2.1

theorem State.sent.finish : finish s.settings m = m := finish_quiet _ _ (hs.busy hr) (hs.waits hr)

theorem State.sent.settle (c : Settings) : s.sent fs (settle c m) := by
  rw [settle_none _ _ (hs.waits hr)]
  exact hs

end Sent

/-- An offer that is admitted, given room, is the next to have joined. -/
theorem State.sent.offerNow {c : Settings} {fs : List OwnFrame} {o : OwnFrame} (hs : s.sent fs m)
    (hr : s.roomFor (fs ++ [o]).length) (ha : m.memb.ring.admits o.kind = true) (ho : o.fatal = false) :
    s.sent (fs ++ [o]) (offerNow c o m) := by
  rw [List.length_append] at hr
  have hr' := hr.le (Nat.le_add_right _ 1)
  have hq : m.ring.insertQueue.length < 16 := by
    have := hr.2.2
    rw [hs.2, List.length_append]
    simp only [List.length_cons, List.length_nil] at this
    omega
  rw [offerNow_room _ _ _ (hs.busy hr') (hs.waits hr') hq ha ho]
  exact ⟨hs.1, by rw [hs.2, List.append_assoc]⟩

theorem State.sent.answer {c : Settings} {fs : List OwnFrame} {i : Nat} {st : Status} (hs : s.sent fs m)
    (hr : s.roomFor (fs ++ [answerFrame h (byte i) st.code]).length) (ha : m.memb.ring.admits .reply = true) :
    s.sent (fs ++ [answerFrame h (byte i) st.code]) (answer c h i st m) :=
  hs.offerNow hr ha rfl

/-- What has joined the queue by the end of a command is what it offers. -/
theorem offers_of_sent {fs : List OwnFrame} (hs : s.roomFor fs.length → s.sent fs m) :
    s.offers fs (s.withNode (Machine.finish s.settings m)) := fun hr => by
  rw [(hs hr).finish hr]
  exact ⟨(hs hr).2, (hs hr).1⟩

/-! ## STAND_COMMAND (R107, R108, R110) -/

theorem mayPreset_iff {n : Node} : mayPreset n = true ↔ n.sched.active.isSome = true ∧
    n.memb.ring = .joined ∧ n.memb.upstream.mark = .live ∧ n.memb.downstream.mark = .live := by
  simp only [mayPreset, Membership.bothLive, Bool.and_eq_true, decide_eq_true_eq, and_assoc]

theorem tableFull_iff {n : Node} : tableFull n = true ↔ 4 ≤ n.dir.table.length := decide_eq_true_iff

section Preset
variable (c : Settings) (h : Header) {n : Node}

theorem commandPreset_refused (hno : ¬ (n.seq.stand = .quiet ∧ mayPreset n = true)) :
    commandPreset c h n = answer c h 2 .state n := by
  unfold commandPreset
  rw [if_pos]
  simpa [imp_iff_not_or] using hno

theorem commandPreset_taken (hok : n.seq.stand = .quiet ∧ mayPreset n = true) : commandPreset c h n =
    if tableFull n then answer c h 2 .busy n else enterPreset c (addEntry (longEntry h 2 .preset none) n) := by
  unfold commandPreset
  rw [if_neg]
  simp [hok]

end Preset

/-- Settles O38: refused, BUSY, or the entry to PRESET with the request in the table. -/
theorem presetCommandEntersPreset : Obligations.PresetCommandEntersPreset := by
  intro h s hl ha ok
  have hh : s.hands h := ha.1
  have hok : ok ↔ s.node.seq.stand = .quiet ∧ mayPreset s.node = true := and_congr_right' mayPreset_iff.symm
  refine ⟨_, exec_standCommandPreset h hl ha, fun hno => ?_, fun hyes hfull => ?_,
    fun hyes hroom id r hr => ?_⟩
  · rw [commandPreset_refused _ _ (mt hok.mpr hno)]
    exact answered_unchanged hh 2 .state
  · rw [commandPreset_taken _ _ (hok.mp hyes), if_pos (tableFull_iff.mpr hfull)]
    exact answered_unchanged hh 2 .busy
  · rw [commandPreset_taken _ _ (hok.mp hyes), if_neg (by rw [tableFull_iff]; omega)]
    have hgap : (addEntry (longEntry h 2 .preset none) s.node).threadGap = r.threadGap := by
      unfold Node.threadGap
      rw [addEntry_sched, hr]
    refine ⟨rfl, rfl, ?_, acted_quietly (Node.keepsBut_of_overlay rfl)⟩
    simp only [withNode_node, finish_gap, enterPreset, hgap]
    rfl

/-! ### QUIET -/

section Quiet
variable (c : Settings) {n : Node}

/-- Entry to QUIET from a stand other than TRIPPED (R110). -/
theorem enterQuiet_gap (hs : n.seq.stand ≠ .tripped) : (enterQuiet c n).gap = ({ n.gap with
    base := some c.config.standbyGap, ff := 0, monitor := 0, profileTrim := 0, clampMark := false
    waiting := none } : GapControl).refer c.config c.config.standbyGap := by
  have hs' : decide (n.seq.stand = .tripped) = false := decide_eq_false hs
  simp only [enterQuiet, hs', Bool.false_and, Bool.false_eq_true, if_false, enterQuietQuietly,
    GapControl.enterQuiet]

/-- Beside the Gap Controller, what entry to QUIET makes of the node. -/
theorem enterQuiet_eq (hs : n.seq.stand ≠ .tripped) : enterQuiet c n = { n with
    seq := { n.seq with stand := .quiet, holds := Holds.empty }
    memb := { n.memb with graceTimer := none }
    dir := { n.dir with changed := ChangedFlags.clear }
    meas := n.meas.standDown
    track := n.track.clearArrival
    sched := { n.sched with profile := none }
    gap := ({ n.gap with
      base := some c.config.standbyGap, ff := 0, monitor := 0, profileTrim := 0, clampMark := false
      waiting := none } : GapControl).refer c.config c.config.standbyGap } := by
  have hq : enterQuiet c n = enterQuietQuietly c n := if_neg (by simp [hs])
  rw [← enterQuiet_gap c hs, hq]
  rfl

end Quiet

/-- The REPLY that an aborted PRESET is given, to its requester (R53). -/
def abortedPreset (n : Node) : List OwnFrame :=
  (n.dir.table.find? isPreset).toList.map (fun e => replyFrame e.requester e.tag e.index .aborted [])

/-- Aborting a PRESET takes its entry from the table, and touches the transmit side. -/
theorem abortPreset_eq (c : Settings) (n : Node) : ∃ r f, abortPreset c n = { n with
    dir := { n.dir with table := n.dir.table.eraseP isPreset }, ring := r, flt := f } := by
  obtain ⟨r, f, d, h⟩ := abortPreset_rest c n
  have hd := abortPreset_dir c n
  rw [h] at hd
  exact ⟨r, f, h.trans (by rw [← hd])⟩

theorem abortPreset_room (c : Settings) (n : Node) (hb : n.ring.sending.isSome = true)
    (hr : n.ring.insertQueue.length + (abortedPreset n).length ≤ 16) (ha : n.memb.ring.admits .reply = true) :
    abortPreset c n = { n with
      dir := { n.dir with table := n.dir.table.eraseP isPreset }
      ring := { n.ring with insertQueue := n.ring.insertQueue ++ abortedPreset n } } := by
  have hd := abortPreset_dir c n
  unfold abortedPreset at hr ⊢
  unfold abortPreset endEntryDeferred at hd ⊢
  cases hfind : n.dir.table.find? isPreset with
  | none =>
    rw [hfind] at hd
    simp only at hd
    simp only [Option.toList_none, List.map_nil, List.append_nil, ← hd]
  | some e =>
    rw [hfind] at hr
    exact offer_room _ _ _ (by exact hb) (Nat.lt_of_succ_le hr) (by exact ha) rfl

/-- The node in which a QUIET command leaves the machine, before its REPLY. -/
def quieted (c : Settings) (n : Node) : Node :=
  if n.seq.stand = .preset then enterQuiet c (settle c (abortPreset c n)) else enterQuiet c n

theorem commandQuiet_taken (c : Settings) (h : Header) {n : Node}
    (hs : n.seq.stand = .preset ∨ n.seq.stand = .ready) :
    commandQuiet c h n = answer c h 2 .done (quieted c n) := by
  obtain hs | hs := hs <;> simp [commandQuiet, quieted, hs]

theorem commandQuiet_refused (c : Settings) (h : Header) {n : Node} (hq : n.seq.stand ≠ .quiet)
    (hp : n.seq.stand ≠ .preset) (hr : n.seq.stand ≠ .ready) :
    commandQuiet c h n = answer c h 2 .state n := by
  unfold commandQuiet
  split
  next hs => exact absurd hs hq
  next hs => exact absurd hs hp
  next hs => exact absurd hs hr
  next => rfl

/-- A QUIET command's effects on the blocks, the PRESET entry aborted in PRESET (R53, R110). -/
theorem quieted_eq (c : Settings) {n : Node} (hs : n.seq.stand = .preset ∨ n.seq.stand = .ready) :
    ∃ r f, quieted c n = { enterQuiet c n with
      dir := { changed := ChangedFlags.clear
               table := if n.seq.stand = .preset then n.dir.table.eraseP isPreset else n.dir.table }
      ring := r, flt := f } := by
  have hnot : n.seq.stand ≠ .tripped := by obtain hs | hs := hs <;> rw [hs] <;> exact StandState.noConfusion
  unfold quieted
  split
  next hp =>
    obtain ⟨r, f, habort⟩ := abortPreset_eq c n
    rw [habort, enterQuiet_eq c hnot, enterQuiet_eq c (by exact hnot)]
    exact ⟨_, _, rfl⟩
  next =>
    rw [enterQuiet_eq c hnot]
    exact ⟨_, _, rfl⟩

/-- The frames that a QUIET command offers before its REPLY. -/
def quietFrames (n : Node) : List OwnFrame := if n.seq.stand = .preset then abortedPreset n else []

theorem quieted_sent (hs : s.node.seq.stand = .preset ∨ s.node.seq.stand = .ready) (hh : s.hands h)
    (hr : s.roomFor (quietFrames s.node).length) : s.sent (quietFrames s.node) (quieted s.settings s.node) := by
  have hnot : s.node.seq.stand ≠ .tripped := by
    obtain hs | hs := hs <;> rw [hs] <;> exact StandState.noConfusion
  obtain ⟨hb, hw, hq⟩ := hr
  unfold quieted quietFrames at *
  split
  next hp =>
    rw [if_pos hp] at hq
    rw [abortPreset_room _ _ hb hq (admits_of_hands hh _), settle_none _ _ (by exact hw),
      enterQuiet_eq _ (by exact hnot)]
    exact ⟨rfl, rfl⟩
  next hp =>
    rw [enterQuiet_eq _ hnot]
    exact State.sent_nil

/-- Settles O39: by the stand state; a PRESET entry is aborted before the entry to QUIET. -/
theorem quietCommandEntersQuiet : Obligations.QuietCommandEntersQuiet := by
  intro h s hl ha n gap
  have hh : s.hands h := ha.1
  refine ⟨_, exec_standCommandQuiet h hl ha, fun hq => ?_, fun hs => ?_, fun hq hp hr => ?_⟩
  · have hdone : commandQuiet s.settings h s.node = answer s.settings h 2 .done s.node := by
      simp only [commandQuiet, show s.node.seq.stand = .quiet from hq]
    rw [hdone]
    exact answered_unchanged hh 2 .done
  · have hnot : s.node.seq.stand ≠ .tripped := by
      obtain hs | hs := hs <;> rw [show s.node.seq.stand = _ from hs] <;> exact StandState.noConfusion
    rw [commandQuiet_taken _ _ hs]
    obtain ⟨r, f, hm⟩ := quieted_eq s.settings hs
    have hm' := hm.trans (by rw [enterQuiet_eq s.settings hnot])
    refine ⟨congrArg Node.seq hm', congrArg Node.memb hm', congrArg Node.dir hm', congrArg Node.meas hm',
      congrArg Node.track hm', congrArg Node.sched hm', congrArg Node.gap hm', ?_, offers_of_sent fun hroom => ?_⟩
    · refine keepsBut_answer ?_ (by decide) (by decide)
      rw [hm']
      exact Node.keepsBut_of_overlay rfl
    · have hlen : (quietFrames s.node).length ≤ (quietFrames s.node ++ [answerFrame h 2 0]).length := by simp
      refine (quieted_sent hs hh (hroom.le hlen)).answer hroom ?_
      rw [hm']
      exact admits_of_hands hh _
  · rw [commandQuiet_refused _ _ hq hp hr]
    exact answered_unchanged hh 2 .state

end Sys2Proof.Machine
end

section
/-! SUPPORT. Writes and reads that their owner takes at once (R129, R130, R139, R143, R144, R154, R156, R185,
R186): what each makes of the node, and what it offers. -/

namespace Sys2Proof.Machine

set_option Elab.async false

variable {s : State} {m : Node}

/-! ## A write taken DONE and echoed -/

/-- The end of an echoed write, with the flags it sets. -/
theorem echoed_dir (c : Settings) (h : Header) (i : Nat) (v : List Byte) (n : Node) :
    (finish c (answerEchoed c h i v n)).dir = { n.dir with changed := n.dir.changed.set i } :=
  answerEchoed_dir c h i v n ChangedFlags.set_of_get

/-! ## NEXT_SCHEDULE (R129, R130) -/

section NextSchedule
variable (c : Settings) (h : Header) (id : Byte) {n : Node}

theorem writeNextSchedule_activates (hs : n.seq.stand = .quiet) (hl : n.sched.hasLoaded id.toNat = true) :
    writeNextSchedule c h id n = answerEchoed c h 4 [id] { n with sched := { n.sched with
      slots := mapFour (Slot.activate id.toNat) n.sched.slots } } := by
  simp only [writeNextSchedule, hs, hl, if_true]

theorem writeNextSchedule_arms (hs : n.seq.stand = .rolling) (hl : n.sched.hasLoaded id.toNat = true) :
    writeNextSchedule c h id n = answerEchoed c h 4 [id] (armSlot id.toNat n) := by
  simp only [writeNextSchedule, hs, hl, if_true]

theorem writeNextSchedule_disarms (hs : n.seq.stand = .rolling) (hl : ¬ n.sched.hasLoaded id.toNat = true)
    (hid : id = 0) : writeNextSchedule c h id n = answerEchoed c h 4 [id] { n with sched := n.sched.disarm } := by
  simp only [writeNextSchedule, hs, if_neg hl, if_pos hid]

theorem writeNextSchedule_range (hs : n.seq.stand = .quiet ∨ n.seq.stand = .rolling ∧ id ≠ 0)
    (hl : ¬ n.sched.hasLoaded id.toNat = true) : writeNextSchedule c h id n = answer c h 4 .range n := by
  obtain hs | ⟨hs, hid⟩ := hs
  · simp only [writeNextSchedule, hs, if_neg hl]
  · simp only [writeNextSchedule, hs, if_neg hl, if_neg hid]

theorem writeNextSchedule_state (hq : n.seq.stand ≠ .quiet) (hr : n.seq.stand ≠ .rolling) :
    writeNextSchedule c h id n = answer c h 4 .state n := by
  unfold writeNextSchedule
  split
  next hs => exact absurd hs hq
  next hs => exact absurd hs hr
  next => rfl

theorem armSlot_eq (k : Nat) (n : Node) : ∃ g, armSlot k n = { n with
    sched := { n.sched with slots := mapFour (Slot.arm k) n.sched.slots }, gap := g } := ⟨_, rfl⟩

/-- The class of the newly PENDING slot is prefetched (R152). -/
theorem armSlot_gap {k j : Nat} {r : Schedule} (h : (armSlot k n).sched.pendingSlot = some (j, r)) :
    (armSlot k n).gap = n.gap.prefetch r.pclass n.meas.band := by
  unfold armSlot at h ⊢
  dsimp only at h ⊢
  rw [h]

end NextSchedule

/-- Settles O40: by the stand state, and by whether a slot holds the id LOADED. -/
theorem nextScheduleActivatesOrArms : Obligations.NextScheduleActivatesOrArms := by
  intro h id s hl ha n loaded done dir
  have hh : s.hands h := ha.1
  have hloaded : loaded ↔ s.node.sched.hasLoaded id.toNat = true := SchedStore.hasLoaded_iff.symm
  refine ⟨_, exec_nextSchedule h id hl ha, fun hs hyes => ?_, fun hs hyes => ?_, fun hs hno hid => ?_,
    fun hs hno => ?_, fun hq hr => ?_⟩
  · rw [writeNextSchedule_activates _ h id hs (hloaded.mp hyes)]
    obtain ⟨r, f, he⟩ := answerEchoed_rest s.settings h 4 [id] { s.node with sched := { s.node.sched with
      slots := mapFour (Slot.activate id.toNat) s.node.sched.slots } }
    exact ⟨congrArg Node.sched he, echoed_dir _ _ _ _ _,
      acted_echoed hh 4 [id] (Node.keepsBut_of_overlay rfl)⟩
  · rw [writeNextSchedule_arms _ h id hs (hloaded.mp hyes)]
    obtain ⟨r, f, he⟩ := answerEchoed_rest s.settings h 4 [id] (armSlot id.toNat s.node)
    refine ⟨congrArg Node.sched he, fun k r hp => (congrArg Node.gap he).trans (armSlot_gap (j := k) ?_),
      echoed_dir _ _ _ _ _, acted_echoed hh 4 [id] (Node.keepsBut_of_overlay rfl)⟩
    rw [← hp]
    exact congrArg (SchedStore.pendingSlot ·.sched) he.symm
  · rw [writeNextSchedule_disarms _ h id hs (mt hloaded.mpr hno) hid]
    obtain ⟨r, f, he⟩ := answerEchoed_rest s.settings h 4 [id] { s.node with sched := s.node.sched.disarm }
    exact ⟨congrArg Node.sched he, echoed_dir _ _ _ _ _,
      acted_echoed hh 4 [id] (Node.keepsBut_of_overlay rfl)⟩
  · rw [writeNextSchedule_range _ h id hs (mt hloaded.mpr hno)]
    exact answered_unchanged hh 4 .range
  · rw [writeNextSchedule_state _ h id hq hr]
    exact answered_unchanged hh 4 .state

/-! ## The enables (R144) -/

theorem toNat_le_one {v : Byte} : v.toNat ≤ 1 ↔ v = 0 ∨ v = 1 := by
  constructor
  · intro h
    have hcases : v.toNat = 0 ∨ v.toNat = 1 := by omega
    exact hcases.imp BitVec.eq_of_toNat_eq BitVec.eq_of_toNat_eq
  · rintro (rfl | rfl) <;> decide

/-- Settles O43: 0 and 1 are stored and echoed, and anything else is refused. -/
theorem enablesAreStored : Obligations.EnablesAreStored := by
  intro h v s hl
  refine ⟨fun ha => ⟨_, exec_ffEnable h v hl ha, fun hv => ?_, fun h0 h1 => ?_⟩,
    fun ha => ⟨_, exec_monitorEnable h v hl ha, fun hv => ?_, fun h0 h1 => ?_⟩⟩
  · rw [writeFfEnable, if_pos (toNat_le_one.mpr hv)]
    obtain ⟨r, f, he⟩ := answerEchoed_rest s.settings h 8 [v] { s.node with
      gap := { s.node.gap with ffEnable := v = 1 } }
    exact ⟨congrArg Node.gap he, echoed_dir _ _ _ _ _,
      acted_echoed ha.1 8 [v] (Node.keepsBut_of_overlay rfl)⟩
  · rw [writeFfEnable, if_neg (by rw [toNat_le_one]; tauto)]
    exact answered_unchanged ha.1 8 .range
  · rw [writeMonitorEnable, if_pos (toNat_le_one.mpr hv)]
    obtain ⟨r, f, he⟩ := answerEchoed_rest s.settings h 9 [v] { s.node with
      gap := { s.node.gap with monitorEnable := v = 1 } }
    exact ⟨congrArg Node.gap he, echoed_dir _ _ _ _ _,
      acted_echoed ha.1 9 [v] (Node.keepsBut_of_overlay rfl)⟩
  · rw [writeMonitorEnable, if_neg (by rw [toNat_le_one]; tauto)]
    exact answered_unchanged ha.1 9 .range

/-! ## COEF_ENTRY (R154, R156) -/

theorem coefOfFields_inRange {pclass band : Byte} {ff mon : Half} :
    (coefOfFields pclass band ff mon).inRange = true ↔ pclass.toNat ≤ 63 ∧ band.toNat ≤ 7 ∧
      -2000 ≤ ff.toInt ∧ ff.toInt ≤ 2000 ∧ mon.toNat ≤ 1000 := CoefRecord.inRange_iff

theorem room_eq_false_iff {g : GapControl} : (!g.room) = true ↔ 4 ≤ g.queue.length := by
  simp [GapControl.room]

theorem filling_iff_mem {g : GapControl} {t : CoefTag} : g.filling t = true ↔ ParamOp.fill t ∈ g.queue := by
  simp [GapControl.filling]

/-- An operation that joins an idle port's queue enters service with 20 ms (R153). -/
theorem enqueue_eq (op : ParamOp) (g : GapControl) : g.enqueue op = { g with
    queue := g.queue ++ [op], opTimer := if g.queue = [] then some 20 else g.opTimer } := by
  unfold GapControl.enqueue
  simp only [List.isEmpty_iff]

section CoefWrite
variable (c : Settings) (h : Header) {r : CoefRecord} {n : Node}

theorem writeCoef_range (hr : r.inRange = false) : writeCoef c h r n = answer c h 13 .range n := by
  simp only [writeCoef, hr, Bool.not_false, if_true]

theorem writeCoef_access (hr : r.inRange = true) (hp : c.writeProtect = true) :
    writeCoef c h r n = answer c h 13 .access n := by
  simp only [writeCoef, hr, hp, Bool.not_true, Bool.false_eq_true, if_false, if_true]

theorem coefBusy_iff : (!n.gap.room || tableFull n) = true ↔
    4 ≤ n.gap.queue.length ∨ 4 ≤ n.dir.table.length := by
  rw [Bool.or_eq_true, room_eq_false_iff, tableFull_iff]

theorem writeCoef_busy (hr : r.inRange = true) (hp : ¬ c.writeProtect = true)
    (hq : 4 ≤ n.gap.queue.length ∨ 4 ≤ n.dir.table.length) : writeCoef c h r n = answer c h 13 .busy n := by
  simp only [writeCoef, hr, hp, Bool.not_true, Bool.false_eq_true, if_false, if_pos (coefBusy_iff.mpr hq)]

theorem writeCoef_queued (hr : r.inRange = true) (hp : ¬ c.writeProtect = true)
    (hq : ¬ (4 ≤ n.gap.queue.length ∨ 4 ≤ n.dir.table.length)) : writeCoef c h r n =
      { addEntry (longEntry h 13 .coefWrite (some r.tag)) n with gap := n.gap.enqueue (.write r true) } := by
  simp only [writeCoef, hr, hp, Bool.not_true, Bool.false_eq_true, if_false, if_neg (mt coefBusy_iff.mp hq),
    addEntry_gap]

end CoefWrite

/-- Settles O44: the refusals in their order, or the table's entry and the queue's. -/
theorem coefficientWriteIsQueued : Obligations.CoefficientWriteIsQueued := by
  intro h pclass band ff mon s hl ha n inRange tag
  have hh : s.hands h := ha.1
  refine ⟨_, exec_coefEntryWrite h pclass band ff mon hl ha, ?_⟩
  by_cases hr : inRange
  case neg =>
    rw [if_pos hr, writeCoef_range _ _ (Bool.eq_false_iff.mpr (mt coefOfFields_inRange.mp hr))]
    exact answered_unchanged hh 13 .range
  rw [if_neg (not_not.mpr hr)]
  have hr' := coefOfFields_inRange.mpr hr
  by_cases hp : s.settings.writeProtect = true
  · rw [if_pos hp, writeCoef_access _ _ hr' hp]
    exact answered_unchanged hh 13 .access
  rw [if_neg hp]
  by_cases hq : 4 ≤ s.node.gap.queue.length ∨ 4 ≤ s.node.dir.table.length
  · rw [if_pos hq, writeCoef_busy _ _ hr' hp hq]
    exact answered_unchanged hh 13 .busy
  · rw [if_neg hq, writeCoef_queued _ _ hr' hp hq]
    exact ⟨rfl, enqueue_eq _ _, acted_quietly (Node.keepsBut_of_overlay rfl)⟩

theorem readRefused_eq_none {c : Settings} {i : Nat}
    (h : ∃ k, settledClass c i = some k ∧ k ≠ .closed) : readRefused c i = none := by
  obtain ⟨k, hk, hopen⟩ := h
  unfold readRefused
  rw [hk]
  cases k with
  | closed => exact absurd rfl hopen
  | _ => rfl

theorem readRequest_coef (c : Settings) (h : Header) (a b : Byte) (n : Node) (hc : readRefused c 13 = none) :
    readRequest c h 13 a b n = readCoef c h ⟨a.toNat, b.toNat⟩ n := by
  change (match readRefused c 13 with
    | some st => answer c h 13 st n
    | none => readCoef c h ⟨a.toNat, b.toNat⟩ n) = _
  rw [hc]

theorem exec_coefRead {h : Header} (a b : Byte) (hl : s.live) (hh : s.hands h)
    (hc : ∃ k, settledClass s.settings 13 = some k ∧ k ≠ .closed) :
    exec (.coefEntryRead h a b) s =
      .next (s.withNode (finish s.settings (readCoef s.settings h ⟨a.toNat, b.toNat⟩ s.node))) := by
  rw [exec_coefReadRow, State.act_live _ _ hl, readArrives, if_pos (show handed _ _ _ _ = true from hh),
    readRequest_coef _ _ _ _ _ (readRefused_eq_none hc)]

/-- A REPLY with a value, offered last. -/
theorem replied_unchanged {h : Header} (hh : s.hands h) (index : Nat) (status : Status) (v : List Byte) :
    let t := s.withNode (finish s.settings (reply s.settings h.source h.tag index status v s.node))
    s.keepsBut [.ring, .flt] t ∧ s.offers [replyFrame h.source h.tag index status v] t :=
  ⟨keepsBut_finish (Node.keepsBut_of_overlay rfl) (by decide) (by decide),
    offers_of_sent (fun hr => (State.sent_nil).offerNow (fs := []) hr (admits_of_hands hh _) rfl)⟩

section CoefRead
variable (c : Settings) (h : Header) {t : CoefTag} {n : Node}

theorem readCoef_range (hr : 63 < t.pclass ∨ 7 < t.band) : readCoef c h t n = answer c h 13 .range n :=
  if_pos (by simpa using hr)

variable (hr : ¬ (63 < t.pclass ∨ 7 < t.band))
include hr

theorem readCoef_hit {r : CoefRecord} (hc : n.gap.cached t = some r) :
    readCoef c h t n = reply c h.source h.tag 13 .done r.value n := by
  unfold readCoef
  rw [if_neg (by simpa using hr)]
  simp only [hc]

theorem readCoef_miss (hc : n.gap.cached t = none) : readCoef c h t n =
    if n.gap.filling t then
      if tableFull n then answer c h 13 .busy n
      else addEntry (longEntry h 13 .coefRead (some t)) n
    else if !n.gap.room || tableFull n then answer c h 13 .busy n
    else { addEntry (longEntry h 13 .coefRead (some t)) n with gap := n.gap.enqueue (.fill t) } := by
  unfold readCoef
  rw [if_neg (by simpa using hr)]
  simp only [hc, addEntry_gap]

theorem readCoef_busy (hc : n.gap.cached t = none)
    (hq : 4 ≤ n.dir.table.length ∨ ParamOp.fill t ∉ n.gap.queue ∧ 4 ≤ n.gap.queue.length) :
    readCoef c h t n = answer c h 13 .busy n := by
  rw [readCoef_miss c h hr hc]
  split
  next hfill =>
    rw [if_pos]
    exact tableFull_iff.mpr (hq.resolve_right fun hno => hno.1 (filling_iff_mem.mp hfill))
  next => rw [if_pos (coefBusy_iff.mpr (hq.symm.imp_left And.right))]

theorem readCoef_waits (hc : n.gap.cached t = none) (hfull : ¬ 4 ≤ n.dir.table.length)
    (hfill : ParamOp.fill t ∈ n.gap.queue) :
    readCoef c h t n = addEntry (longEntry h 13 .coefRead (some t)) n := by
  rw [readCoef_miss c h hr hc]
  rw [if_pos (filling_iff_mem.mpr hfill), if_neg (mt tableFull_iff.mp hfull)]

theorem readCoef_fills (hc : n.gap.cached t = none) (hfull : ¬ 4 ≤ n.dir.table.length)
    (hfill : ParamOp.fill t ∉ n.gap.queue) (hroom : ¬ 4 ≤ n.gap.queue.length) : readCoef c h t n =
      { addEntry (longEntry h 13 .coefRead (some t)) n with gap := n.gap.enqueue (.fill t) } := by
  rw [readCoef_miss c h hr hc]
  rw [if_neg (mt filling_iff_mem.mp hfill), if_neg (mt coefBusy_iff.mp (by tauto))]

end CoefRead

/-- Settles O45: RANGE, the cached record, BUSY, or a wait on the tag's fill. -/
theorem coefficientReadHitsOrWaits : Obligations.CoefficientReadHitsOrWaits := by
  intro h pclass band s hl hh hc n tag dir
  refine ⟨_, exec_coefRead pclass band hl hh hc, ?_⟩
  by_cases hr : 63 < pclass.toNat ∨ 7 < band.toNat
  · rw [if_pos hr, readCoef_range _ _ hr]
    exact answered_unchanged hh 13 .range
  rw [if_neg hr]
  split
  next r hcached =>
    rw [readCoef_hit _ _ hr hcached]
    exact replied_unchanged hh 13 .done r.value
  next hnone =>
    by_cases hq : 4 ≤ s.node.dir.table.length ∨
        ParamOp.fill tag ∉ s.node.gap.queue ∧ 4 ≤ s.node.gap.queue.length
    · rw [if_pos hq, readCoef_busy _ _ hr hnone hq]
      exact answered_unchanged hh 13 .busy
    rw [if_neg hq]
    obtain ⟨hfull, hroom⟩ := not_or.mp hq
    by_cases hfill : ParamOp.fill tag ∈ s.node.gap.queue
    · rw [if_pos hfill, readCoef_waits _ _ hr hnone hfull hfill]
      exact ⟨rfl, acted_quietly (Node.keepsBut_of_overlay rfl)⟩
    · rw [if_neg hfill, readCoef_fills _ _ hr hnone hfull hfill (fun h => hroom ⟨hfill, h⟩)]
      exact ⟨rfl, enqueue_eq _ _, acted_quietly (Node.keepsBut_of_overlay rfl)⟩

/-! ## FAULT_COUNTS and FAULT_SUMMARY (R185, R186) -/

/-- An answer offered last, by a command that has changed the Fault Unit and nothing that waits in it. -/
theorem answered_flt {h : Header} {f : FaultUnit} (hh : s.hands h) (index : Nat) (status : Status)
    (hf : f.raised = s.node.flt.raised) (hr : s.roomFor 1) :
    let m := finish s.settings (answer s.settings h index status { s.node with flt := f })
    m.flt = f ∧ m.ring = { s.node.ring with
      insertQueue := s.node.ring.insertQueue ++ [answerFrame h (byte index) status.code] } := by
  have hr' : (s.withNode { s.node with flt := f }).roomFor 1 := ⟨hr.1, hf.trans hr.2.1, hr.2.2⟩
  have hsent : (s.withNode { s.node with flt := f }).sent [answerFrame h (byte index) status.code]
      (answer s.settings h index status { s.node with flt := f }) :=
    (State.sent_nil).answer (fs := []) hr' (admits_of_hands hh _)
  have hend := hsent.finish hr'
  exact ⟨(congrArg Node.flt hend).trans hsent.1, (congrArg Node.ring hend).trans hsent.2⟩

/-- The counters that FAULT_COUNTS clears: that of a code, or with 0 all. -/
def clearedCounters (code : Byte) (cs : List Nat) : List Nat :=
  if code.toNat = 0 then List.replicate 32 0 else cs.set (code.toNat - 1) 0

theorem writeFaultCounts_range (c : Settings) (h : Header) {code : Byte} {count : Half} (n : Node)
    (hb : count ≠ 0 ∨ 32 < code.toNat) : writeFaultCounts c h code count n = answer c h 17 .range n :=
  if_pos (by simpa using hb)

theorem writeFaultCounts_clears (c : Settings) (h : Header) {code : Byte} {count : Half} (n : Node)
    (hb : ¬ (count ≠ 0 ∨ 32 < code.toNat)) : writeFaultCounts c h code count n =
      answer c h 17 .done { n with flt := { n.flt with counters := clearedCounters code n.flt.counters } } :=
  if_neg (by simpa using hb)

theorem clearedCounters_all (cs : List Nat) (k : Nat) : (clearedCounters 0 cs).getD k 0 = 0 := by
  change (List.replicate 32 0).getD k 0 = 0
  rw [List.getD_eq_getElem?_getD, List.getElem?_replicate]
  split <;> rfl

section ClearedOne
variable {code : Byte} (hc : code ≠ 0) (cs : List Nat)
include hc

theorem clearedCounters_eq : clearedCounters code cs = cs.set (code.toNat - 1) 0 :=
  if_neg fun h => hc (BitVec.eq_of_toNat_eq h)

theorem clearedCounters_self : (clearedCounters code cs).getD (code.toNat - 1) 0 = 0 := by
  rw [clearedCounters_eq hc, List.getD_eq_getElem?_getD, List.getElem?_set_self']
  cases cs[code.toNat - 1]? <;> rfl

theorem clearedCounters_ne {k : Nat} (hk : k + 1 ≠ code.toNat) : (clearedCounters code cs)[k]? = cs[k]? := by
  rw [clearedCounters_eq hc, List.getElem?_set_ne]
  have hpos : code.toNat ≠ 0 := fun h => hc (BitVec.eq_of_toNat_eq h)
  omega

end ClearedOne

/-- Settles O47: the counters that the code names become 0, or the first-fault record none. -/
theorem faultRecordsAreCleared : Obligations.FaultRecordsAreCleared := by
  refine ⟨fun h code count s hl ha => ⟨_, exec_faultCountsClear h code count hl ha, ?_⟩,
    fun h v s hl ha => ⟨_, exec_faultSummaryClear h v hl ha, ?_⟩⟩
  · have hh : s.hands h := ha.1
    by_cases hb : count ≠ 0 ∨ 32 < code.toNat
    · rw [writeFaultCounts_range _ _ _ hb]
      have hend := answered_unchanged hh 17 .range
      exact ⟨hend.1, fun _ => hend.2, fun hc hk => absurd hb (by rintro (h | h); exact h hc; omega)⟩
    · rw [writeFaultCounts_clears _ _ _ hb]
      refine ⟨keepsBut_answer (Node.keepsBut_of_overlay rfl) (by decide) (by decide), fun h => absurd h hb,
        fun _ _ hr => ?_⟩
      have hend := answered_flt (f := { s.node.flt with
        counters := clearedCounters code s.node.flt.counters }) hh 17 .done rfl hr
      have hcounters := congrArg FaultUnit.counters hend.1
      refine ⟨hend.2, hend.1.trans (congrArg (fun x => { s.node.flt with counters := x }) hcounters.symm),
        fun h0 k => ?_, fun h0 => ⟨?_, fun k hk => ?_⟩⟩
      · rw [withNode_node, hcounters, h0]
        exact clearedCounters_all s.node.flt.counters k
      · rw [withNode_node, hcounters]
        exact clearedCounters_self h0 s.node.flt.counters
      · rw [withNode_node, hcounters]
        exact clearedCounters_ne h0 s.node.flt.counters hk
  · have hh : s.hands h := ha.1
    by_cases hv : v = 0
    · have hclear : writeFaultSummary s.settings h v s.node =
          answer s.settings h 18 .done { s.node with flt := { s.node.flt with first := none } } :=
        if_neg (not_not.mpr hv)
      rw [hclear]
      refine ⟨keepsBut_answer (Node.keepsBut_of_overlay rfl) (by decide) (by decide), fun h => absurd hv h,
        fun _ hr => ?_⟩
      have hend := answered_flt (f := { s.node.flt with first := none }) hh 18 .done rfl hr
      exact ⟨hend.2, hend.1⟩
    · have hrefused : writeFaultSummary s.settings h v s.node = answer s.settings h 18 .range s.node := if_pos hv
      rw [hrefused]
      have hend := answered_unchanged hh 18 .range
      exact ⟨hend.1, fun _ => hend.2, fun h => absurd h hv⟩

end Sys2Proof.Machine
end

section
/-! SUPPORT. The demand reassembled (R139): the reference, and the DEMAND_CLAMPED that waits until the larger event
is complete. -/

namespace Sys2Proof.Machine

set_option Elab.async false

variable {s : State} {m : Node}

/-! ## A deferred event -/

/-- An event that waits is handled as R179 says, given room. -/
theorem settle_deferred (c : Settings) (n : Node) {ev : FaultEvent} (hw : n.flt.raised = [ev])
    (he : ev.report = true) (hb : n.ring.sending.isSome = true) (hq : n.ring.insertQueue.length < 16) :
    settle c n = { n with
      flt := n.flt.after c ev
      ring := { n.ring with insertQueue := queueAfter c n.memb.ring ev n.flt n.ring.insertQueue } } := by
  have hreport := Rep.report_room c (ctxOf c n) ev { n.flt with raised := [] } n.ring rfl rfl rfl he hb hq
  have hsettle : Rep.settle (ctxOf c n) ⟨n.ring, n.flt⟩ =
      ⟨{ n.ring with insertQueue := queueAfter c n.memb.ring ev n.flt n.ring.insertQueue },
        n.flt.after c ev⟩ := by
    simp only [Rep.settle, hw, List.foldl_cons, List.foldl_nil, Rep.handleWhole, Rep.clearRaised, Rep.handle,
      hreport]
    rfl
  unfold settle
  rw [hsettle]

/-- The machine once an event has been reported, given room. -/
def State.afterReport (s : State) (ev : FaultEvent) : State :=
  s.withNode { s.node with
    flt := s.node.flt.after s.settings ev
    ring := { s.node.ring with
      insertQueue := queueAfter s.settings s.node.memb.ring ev s.node.flt s.node.ring.insertQueue } }

theorem length_queueAfter (c : Settings) (r : RingState) (ev : FaultEvent) (f : FaultUnit) (q : List OwnFrame) :
    (queueAfter c r ev f q).length ≤ q.length + 1 := by
  unfold queueAfter
  split
  · split
    · simp
    · simp
  · exact Nat.le_succ _

theorem State.roomFor.afterReport {k : Nat} {ev : FaultEvent} (hr : s.roomFor (1 + k)) :
    (s.afterReport ev).roomFor k := by
  obtain ⟨hb, _, hq⟩ := hr
  refine ⟨hb, rfl, ?_⟩
  have hlen := length_queueAfter s.settings s.node.memb.ring ev s.node.flt s.node.ring.insertQueue
  change (queueAfter _ _ _ _ _).length + k ≤ 16
  omega

/-- A report and nothing else, by the end of a command. -/
theorem reports_of_sent {code : FaultCode} (hs : s.roomFor 1 → (s.afterReport (eventOf code s.node)).sent [] m) :
    s.reports code s.node (s.withNode (finish s.settings m)) := fun hr => by
  have hsent := hs hr
  rw [show finish s.settings m = m from hsent.finish (State.roomFor.afterReport (k := 0) hr)]
  exact ⟨hsent.1, by rw [withNode_node, hsent.2, List.append_nil]; rfl⟩

/-- An answer that is echoed, given room. -/
theorem State.sent.answerEchoed {h : Header} {i : Nat} {v : List Byte} {fs : List OwnFrame} {c : Settings}
    (hs : s.sent fs m)
    (hr : s.roomFor (fs ++ answerFrame h (byte i) 0 :: echoOffered (m.dir.changed.get i) (byte i) v).length)
    (ha : ∀ k, m.memb.ring.admits k = true) :
    s.sent (fs ++ answerFrame h (byte i) 0 :: echoOffered (m.dir.changed.get i) (byte i) v)
      (answerEchoed c h i v m) := by
  have hr' : s.roomFor (fs ++ [answerFrame h (byte i) 0]).length :=
    hr.le (by simp only [List.length_append, List.length_cons, List.length_nil]; omega)
  have hanswer : s.sent (fs ++ [answerFrame h (byte i) 0]) (Machine.answer c h i .done m) := hs.answer hr' (ha _)
  have hflag : (Machine.answer c h i .done m).dir.changed.get i = m.dir.changed.get i := rfl
  unfold Machine.answerEchoed echo
  rw [hflag]
  unfold echoOffered at hr ⊢
  split
  next => exact hanswer
  next hf =>
    rw [if_neg hf] at hr
    have happ : fs ++ answerFrame h (byte i) 0 :: [echoFrame i v] =
      (fs ++ [answerFrame h (byte i) 0]) ++ [echoFrame i v] := by simp
    have hecho : s.sent ((fs ++ [answerFrame h (byte i) 0]) ++ [echoFrame i v]) (Machine.offerNow c (echoFrame i v)
        { Machine.answer c h i .done m with dir := { m.dir with changed := m.dir.changed.set i } }) :=
      State.sent.offerNow (m := { Machine.answer c h i .done m with dir := { m.dir with changed := m.dir.changed.set i } })
        hanswer (by rw [← happ]; exact hr) (ha _) rfl
    rw [← happ] at hecho
    exact hecho

/-! ## Reassembly in a strip state -/

/-- The Gap Controller once the demand has been reassembled under an ACTIVE schedule (R139, R145). -/
def Node.assembled (c : NodeConfig) (b : Nat) (r : Schedule) (n : Node) : GapControl :=
  let d := n.gap.demand n.seq.stand n.seq.holds.any b
  ({ n.gap with unclamped := d, clampMark := clampNeeded r d } : GapControl).placed c (clamped r d).toNat

/-- The reassembly sets the clamp mark from clear. -/
def Node.clampsNow (b : Nat) (r : Schedule) (n : Node) : Bool :=
  clampNeeded r (n.gap.demand n.seq.stand n.seq.holds.any b) && !n.gap.clampMark

theorem clampGap_eq (r : Schedule) (d : Int) : clampGap r d = (clamped r d).toNat := by
  rw [← clampGap_eq_clamped]; rfl

section Strip
variable (c : Settings) {n : Node} {b id : Nat} {r : Schedule} (hb : n.gap.base = some b)
  (ha : n.sched.active = some (id, r)) (hs : n.seq.stand.strip = true)
include hb ha hs

theorem reassemble_strip : reassemble c n = { n with
    gap := n.assembled c.config b r
    flt := if n.clampsNow b r then n.flt.defer (eventOf .demandClamped n) else n.flt } := by
  simp only [reassemble, hb, ha, hs, if_true, refer_eq_placed, clampGap_eq, Node.assembled, Node.clampsNow]
  rfl

theorem reassembleNow_gap : (reassembleNow c n).gap = n.assembled c.config b r := by
  unfold reassembleNow
  rw [settle_gap, reassemble_strip c hb ha hs]

/-- Without a clamp mark that becomes set, nothing is raised. -/
theorem reassembleNow_sent (hm : s.sent [] n) (hn : n.clampsNow b r = false) (hroom : s.roomFor 0) :
    s.sent [] (reassembleNow c n) := by
  unfold reassembleNow
  rw [reassemble_strip c hb ha hs, hn]
  exact State.sent.settle (m := { n with gap := _, flt := n.flt }) ⟨hm.1, hm.2⟩ hroom c

/-- A clamp mark that becomes set is reported. -/
theorem reassembleNow_reports (hm : s.sent [] n) (hn : n.clampsNow b r = true) (hroom : s.roomFor 1)
    (hring : n.memb.ring = s.node.memb.ring) (hev : eventOf .demandClamped n = eventOf .demandClamped s.node) :
    (s.afterReport (eventOf .demandClamped s.node)).sent [] (reassembleNow s.settings n) := by
  obtain ⟨hbusy, hwaits, hqueue⟩ := hroom
  obtain ⟨hflt, hr⟩ := hm
  rw [List.append_nil] at hr
  unfold reassembleNow
  rw [reassemble_strip _ hb ha hs, hn, if_pos rfl, hev, settle_deferred (ev := eventOf .demandClamped s.node)
    _ _ (by rw [FaultUnit.defer, hflt, hwaits]; rfl) rfl (by rw [hr]; exact hbusy) (by rw [hr]; exact hqueue)]
  refine ⟨?_, ?_⟩
  · simp only [hflt]; rfl
  · simp only [hflt, hr, hring, List.append_nil]; rfl

end Strip

/-! ## GAP_TRIM (R143) -/

/-- The node with a new gap trim. -/
def trimmed (v : Int) (n : Node) : Node := { n with gap := { n.gap with gapTrim := v } }

theorem writeGapTrim_range (c : Settings) (h : Header) {trim : Half} (n : Node)
    (hr : ¬ (-1000 ≤ trim.toInt ∧ trim.toInt ≤ 1000)) : writeGapTrim c h trim n = answer c h 7 .range n :=
  if_neg (by simpa using hr)

theorem writeGapTrim_stores (c : Settings) (h : Header) {trim : Half} (n : Node)
    (hr : -1000 ≤ trim.toInt ∧ trim.toInt ≤ 1000) : writeGapTrim c h trim n =
      answerEchoed c h 7 (halfBytes trim) (reassembleUnheld c (trimmed trim.toInt n)) :=
  if_pos (by simpa using hr)

theorem reassembleUnheld_acts (c : Settings) {n : Node} (h : (n.seq.stand.strip && !n.seq.holds.any) = true) :
    reassembleUnheld c n = reassembleNow c n := if_pos h

theorem reassembleUnheld_rests (c : Settings) {n : Node} (h : (n.seq.stand.strip && !n.seq.holds.any) = false) :
    reassembleUnheld c n = n := if_neg (by rw [h]; exact Bool.false_ne_true)

/-- A reassembly leaves the stored terms. -/
theorem reassembleUnheld_gapTrim (c : Settings) (n : Node) :
    (reassembleUnheld c n).gap.gapTrim = n.gap.gapTrim := by
  have hrefer : ∀ r (g : GapControl), (g.refer c.config r).gapTrim = g.gapTrim := by
    intro r g
    unfold GapControl.refer
    split
    · rfl
    · dsimp only
      split
      · split <;> rfl
      · split <;> rfl
      · rfl
  unfold reassembleUnheld
  split
  · unfold reassembleNow
    rw [settle_gap]
    unfold reassemble
    split
    · rfl
    · split
      · dsimp only
        split
        · rfl
        · exact hrefer _ _
      · exact hrefer _ _
  · rfl

/-- The demand of a strip state without a hold, in the terms of R106. -/
theorem demand_unheld {n : Node} (b : Nat) (h : (n.seq.stand.strip && !n.seq.holds.any) = true) :
    n.gap.demand n.seq.stand n.seq.holds.any b = n.unheldDemand b := by
  rw [Bool.and_eq_true, Bool.not_eq_true'] at h
  exact demand_eq_unheldDemand n b h.1 h.2

/-- The demand with a new gap trim, without a hold (R106). -/
theorem unheldDemand_trimmed (v : Int) (b : Nat) (n : Node) : (trimmed v n).unheldDemand b =
    if n.seq.stand = .threading then b + v + n.gap.profileTrim
    else b + n.gap.ff + n.gap.monitor + v + n.gap.profileTrim := by
  change (b : Int) + (if n.seq.stand = .threading then 0 else n.gap.ff + n.gap.monitor) +
    (v + n.gap.profileTrim) = _
  split
  · omega
  · omega

/-- Settles O42: the trim stored, the demand reassembled where R143 says, and the answers offered last. -/
theorem gapTrimStoresTrim : Obligations.GapTrimStoresTrim := by
  intro i h trim s hl ha hi n inRange acts answers
  have hh : s.hands h := ha.1
  have hexec : exec i s = .next (s.withNode (finish s.settings (writeGapTrim s.settings h trim s.node))) := by
    obtain rfl | rfl := hi <;> exact exec_gapTrim h trim hl ha
  refine ⟨_, hexec, fun hr => ?_, fun hr hrest => ?_, fun hr hact b hb id r hid => ?_, fun hr => ?_⟩
  · rw [writeGapTrim_stores _ _ _ hr]
    obtain ⟨g, rr, f, hre⟩ := reassembleUnheld_rest s.settings (trimmed trim.toInt s.node)
    obtain ⟨rr', f', he⟩ := answerEchoed_rest s.settings h 7 (halfBytes trim)
      (reassembleUnheld s.settings (trimmed trim.toInt s.node))
    refine ⟨?_, ?_, ?_⟩
    · exact (congrArg (fun m => m.gap.gapTrim) he).trans (reassembleUnheld_gapTrim _ _)
    · refine (echoed_dir _ _ _ _ _).trans ?_
      rw [hre]
      rfl
    · refine keepsBut_answerEchoed ?_ (by decide) (by decide) (by decide)
      rw [hre]
      exact Node.keepsBut_of_overlay rfl
  · rw [writeGapTrim_stores _ _ _ hr, reassembleUnheld_rests _ (by exact hrest)]
    obtain ⟨rr', f', he⟩ := answerEchoed_rest s.settings h 7 (halfBytes trim) (trimmed trim.toInt s.node)
    exact ⟨congrArg Node.gap he, offers_answerEchoed hh rfl rfl rfl rfl⟩
  · have hstrip : (trimmed trim.toInt s.node).seq.stand.strip = true := (Bool.and_eq_true_iff.mp hact).1
    rw [writeGapTrim_stores _ _ _ hr, reassembleUnheld_acts _ (by exact hact)]
    intro d clamps
    have hd : (trimmed trim.toInt s.node).gap.demand (trimmed trim.toInt s.node).seq.stand
        (trimmed trim.toInt s.node).seq.holds.any b = d := by
      exact (demand_unheld (n := trimmed trim.toInt s.node) b hact).trans (unheldDemand_trimmed _ b s.node)
    obtain ⟨g, rr, f, hre⟩ := reassembleNow_rest s.settings (trimmed trim.toInt s.node)
    have hadmits : ∀ k, (reassembleNow s.settings (trimmed trim.toInt s.node)).memb.ring.admits k = true := by
      rw [hre]; exact admits_of_hands hh
    have hflags : (reassembleNow s.settings (trimmed trim.toInt s.node)).dir = s.node.dir := by rw [hre]; rfl
    have hanswers : answers = [] ++ answerFrame h (byte 7) 0 :: echoOffered
        ((reassembleNow s.settings (trimmed trim.toInt s.node)).dir.changed.get 7) (byte 7) (halfBytes trim) := by
      rw [hflags]; rfl
    have hclamps : (trimmed trim.toInt s.node).clampsNow b r = (clamps && !s.node.gap.clampMark) := by
      rw [Node.clampsNow, hd]
      rfl
    refine ⟨?_, fun hno => ?_, fun hyes hmark hroom => ?_⟩
    · obtain ⟨rr', f', he⟩ := answerEchoed_rest s.settings h 7 (halfBytes trim)
        (reassembleNow s.settings (trimmed trim.toInt s.node))
      refine (congrArg Node.gap he).trans ((reassembleNow_gap _ (n := trimmed trim.toInt s.node) hb hid hstrip).trans ?_)
      rw [Node.assembled, hd]
      rfl
    · refine offers_of_sent fun hroom => ?_
      rw [hanswers] at hroom ⊢
      refine State.sent.answerEchoed (reassembleNow_sent _ (n := trimmed trim.toInt s.node) hb hid hstrip State.sent_nil ?_
        (hroom.le (Nat.zero_le _))) hroom hadmits
      rw [hclamps]
      obtain hno | hno := hno
      · rw [hno]; rfl
      · rw [show s.node.gap.clampMark = true from hno, Bool.not_true, Bool.and_false]
    · have hsent := reassembleNow_reports (n := trimmed trim.toInt s.node) hb hid hstrip State.sent_nil (s := s)
        (by rw [hclamps, hyes, show s.node.gap.clampMark = false from hmark]; rfl)
        (hroom.le (Nat.le_add_right 1 _)) rfl rfl
      have hroom' := State.roomFor.afterReport (ev := eventOf .demandClamped s.node) hroom
      rw [hanswers] at hroom' ⊢
      have hend := hsent.answerEchoed (c := s.settings) (h := h) (i := 7) (v := halfBytes trim) hroom' hadmits
      rw [show finish s.settings _ = _ from hend.finish hroom']
      exact ⟨hend.1, hend.2⟩
  · rw [writeGapTrim_range _ _ _ hr]
    exact answered_unchanged hh 7 .range

end Sys2Proof.Machine
end

section
/-! SUPPORT. What the arbiter, an offer and a fault event leave of the Ring Port: the loss and unmatched counts, and
the outstanding list of a busy link or of a ring state that tracks nothing (R13 to R20, R179). -/

namespace Sys2Proof.Machine

set_option Elab.async false

/-! ## The Ring Port -/

/-- From one Ring Port to another in a ring state: only the arbiter and offers have acted. -/
structure RingPort.Flows (rs : RingState) (p q : RingPort) : Prop where
  loss : q.lossCount = p.lossCount := by rfl
  unmatched : q.unmatchedCount = p.unmatchedCount := by rfl
  busy : p.sending.isSome = true → q.sending = p.sending := by exact fun _ => rfl
  kept : p.sending.isSome = true ∨ rs.tracks = false → q.outstanding = p.outstanding := by exact fun _ => rfl
  mute : rs = .dark ∨ rs = .conflict → q.insertQueue = p.insertQueue := by exact fun _ => rfl

variable {rs : RingState} {p q u : RingPort}

theorem RingPort.Flows.refl (p : RingPort) : p.Flows rs p := {}

theorem RingPort.Flows.trans (h : p.Flows rs q) (g : q.Flows rs u) : p.Flows rs u where
  loss := g.loss.trans h.loss
  unmatched := g.unmatched.trans h.unmatched
  busy hb := (g.busy (by rw [h.busy hb]; exact hb)).trans (h.busy hb)
  kept hk := (g.kept (hk.imp_left fun hb => by rw [h.busy hb]; exact hb)).trans (h.kept hk)
  mute hm := (g.mute hm).trans (h.mute hm)

/-- Where nothing is sent at all, nothing of the queue is. -/
theorem eligible_of_mute (hm : rs = .dark ∨ rs = .conflict) : p.eligible rs = false := by
  obtain rfl | rfl := hm <;> simp [RingPort.eligible]

theorem flows_sendOwn (b : Byte) (o : OwnFrame) {tracked : Bool} {rest : List OwnFrame} {slot : Option OwnFrame}
    (hfree : p.sending = none) (ht : rs.tracks = false → tracked = false)
    (hm : rs = .dark ∨ rs = .conflict → rest = p.insertQueue) :
    p.Flows rs (({ p with insertQueue := rest, tripSlot := slot } : RingPort).sendOwn b o tracked) where
  busy hb := absurd hb (by simp [hfree])
  kept hk := by
    obtain hb | hs := hk
    · exact absurd hb (by simp [hfree])
    · rw [ht hs]; rfl
  mute := hm

theorem flows_sendPass {f : Frame} {rest : List Frame} (hfree : p.sending = none) :
    p.Flows rs (p.sendPass rs f rest) where
  busy hb := absurd hb (by simp [hfree])

theorem flows_selectQueued (b : Byte) (hfree : p.sending = none) : p.Flows rs (p.selectQueued b rs) := by
  unfold RingPort.selectQueued
  split
  · split
    · exact flows_sendPass hfree
    next hn =>
      split
      · refine flows_sendOwn (slot := p.tripSlot) b _ hfree id (fun hm => absurd ?_ hn)
        simp [eligible_of_mute hm]
      · exact flows_sendPass hfree
  · split
    next he =>
      split
      · exact flows_sendOwn (slot := p.tripSlot) b _ hfree id
          (fun hm => absurd he (by simp [eligible_of_mute hm]))
      · exact .refl p
    · exact .refl p

theorem flows_pump (b : Byte) : p.Flows rs (p.pump b rs) := by
  unfold RingPort.pump
  split
  · exact .refl p
  next hfree =>
    unfold RingPort.select
    split
    · split
      · exact flows_sendOwn (rest := p.insertQueue) b _ hfree (fun ht => by simp [ht]) fun _ => rfl
      · exact flows_selectQueued b hfree
    · exact flows_selectQueued b hfree

theorem flows_place (o : OwnFrame) : p.Flows rs (p.place rs o).1 := by
  by_cases ha : rs.admits o.kind = true
  · have hloud : ¬ (rs = .dark ∨ rs = .conflict) := by
      rintro (rfl | rfl) <;> exact absurd ha Bool.false_ne_true
    unfold RingPort.place
    split
    · exact {}
    · split
      · exact { mute := fun hm => absurd hm hloud }
      · split
        · exact {}
        · split
          · exact {}
          · split
            · exact {}
            · exact { mute := fun hm => absurd hm hloud }
  · unfold RingPort.place
    rw [if_pos (by simpa using ha)]
    exact {}

/-! ## With the Fault Unit -/

theorem flows_offer (x : Ctx) (o : OwnFrame) (r : Rep) : r.ring.Flows x.ring (r.offer x o).ring := by
  have hplace := flows_place (rs := x.ring) (p := r.ring) o
  unfold Rep.offer
  split
  next h => rw [h] at hplace; exact hplace.trans (flows_pump _)
  next h => rw [h] at hplace; exact hplace.trans (flows_pump _)
  next => exact {}
  next => exact {}

theorem flows_report (x : Ctx) (ev : FaultEvent) (r : Rep) : r.ring.Flows x.ring (r.report x ev).ring := by
  unfold Rep.report
  split
  · exact {}
  · split
    · exact flows_offer x (faultFrame ev (r.flt.counter ev.code)) { r with flt := { r.flt with
        budgetCount := min (r.flt.budgetCount + 1) 255, offered := satInc r.flt.offered } }
    · exact {}

/-- What each of several events keeps, all of them keep. -/
theorem flows_foldl {rs : RingState} {f : Rep → FaultEvent → Rep} (h : ∀ (r : Rep) (ev : FaultEvent), r.ring.Flows rs (f r ev).ring)
    (evs : List FaultEvent) : ∀ r : Rep, r.ring.Flows rs (evs.foldl f r).ring := by
  induction evs with
  | nil => exact fun r => RingPort.Flows.refl r.ring
  | cons ev evs ih => exact fun r => (h r ev).trans (ih _)

theorem flows_handle (x : Ctx) (ev : FaultEvent) (r : Rep) : r.ring.Flows x.ring (r.handle x ev).ring :=
  flows_report x ev { r with flt := r.flt.count ev }

theorem flows_handleWhole (x : Ctx) (r : Rep) (ev : FaultEvent) :
    r.ring.Flows x.ring (r.handleWhole x ev).ring := by
  have first := flows_handle x ev r.clearRaised
  exact first.trans (flows_foldl (fun q k => flows_handle x k q) _ (Rep.clearRaised _))

theorem flows_repSettle (x : Ctx) (r : Rep) : r.ring.Flows x.ring (r.settle x).ring :=
  flows_foldl (fun q ev => flows_handleWhole x q ev) r.flt.raised r.clearRaised

/-! ## On the node -/

/-- From a node to a node: Ring Membership stays, but for the grace timer, and the Ring Port flows on. -/
structure Node.Flows (n m : Node) : Prop where
  memb : ∃ g, m.memb = { n.memb with graceTimer := g } := by exact ⟨_, rfl⟩
  ring : n.ring.Flows n.memb.ring m.ring := by exact {}

variable {n m k : Node} (c : Settings)

theorem Node.Flows.refl (n : Node) : n.Flows n := {}

theorem Node.Flows.state (h : n.Flows m) : m.memb.ring = n.memb.ring := by
  obtain ⟨g, hg⟩ := h.memb
  rw [hg]

theorem Node.Flows.trans (h : n.Flows m) (g : m.Flows k) : n.Flows k where
  memb := by
    obtain ⟨a, ha⟩ := h.memb
    obtain ⟨b, hb⟩ := g.memb
    exact ⟨b, by rw [hb, ha]⟩
  ring := h.ring.trans (h.state ▸ g.ring)

theorem flows_pumpNode : n.Flows (pump c n) where
  ring := flows_pump _

theorem flows_offerNode (o : OwnFrame) : n.Flows (offer c o n) where
  ring := flows_offer (ctxOf c n) o ⟨n.ring, n.flt⟩

theorem flows_settle : n.Flows (settle c n) where
  ring := flows_repSettle (ctxOf c n) ⟨n.ring, n.flt⟩

theorem flows_offerNow (o : OwnFrame) : n.Flows (offerNow c o n) := (flows_offerNode c o).trans (flows_settle c)

theorem flows_finish : n.Flows (finish c n) := (flows_settle c).trans (flows_pumpNode c)

theorem flows_reportEvent (ev : FaultEvent) : n.Flows (reportEvent c ev n) where
  ring := flows_report (ctxOf c n) ev ⟨n.ring, n.flt⟩

/-! ### Trip entry, holds and faults -/

theorem flows_abortPreset : n.Flows (abortPreset c n) := by
  unfold abortPreset endEntryDeferred
  split
  · exact .refl n
  · exact Node.Flows.trans (m := { n with dir := { n.dir with table := n.dir.table.eraseP isPreset } }) {}
      (flows_offerNode c _)

theorem flows_enterTripped : n.Flows (enterTripped c n) :=
  Node.Flows.trans (m := enterTrippedQuietly c n) {} (flows_abortPreset c)

theorem flows_enterTrippedIfNot : n.Flows (enterTrippedIfNot c n) := by
  unfold enterTrippedIfNot
  split
  · exact .refl n
  · exact flows_enterTripped c

theorem flows_placeOwn (o : Origin) : n.Flows (placeOwn c o n) :=
  Node.Flows.trans (m := { n with trip := _, ring := { n.ring with tripSlot := some (tripFrame o) } }) {}
    (flows_pumpNode c)

theorem flows_takeCause (kind detail : Byte) : n.Flows (takeCause c kind detail n) := by
  unfold takeCause
  split
  · exact {}
  · exact (flows_placeOwn c _).trans (flows_enterTrippedIfNot c)

theorem flows_localCause (kind detail : Byte) (a : Bool) : n.Flows (localCause c kind detail a n) := by
  unfold localCause
  split
  · exact .refl n
  · split
    · exact (flows_takeCause c kind detail).trans {}
    · exact flows_takeCause c kind detail

theorem flows_setHold (k : HoldCause) : n.Flows (setHold c k n) := by
  unfold setHold
  split
  · exact .refl n
  · refine { memb := ?_ }
    dsimp only
    split
    · exact ⟨_, rfl⟩
    · exact ⟨n.memb.graceTimer, rfl⟩

theorem flows_routeEvent (ev : FaultEvent) : n.Flows (routeEvent c ev n) := by
  unfold routeEvent
  split
  · exact .refl n
  · exact flows_localCause c _ _ _
  · split
    · exact flows_localCause c _ _ _
    · split
      · exact flows_setHold c _
      · exact .refl n

theorem flows_handleEvent (ev : FaultEvent) : n.Flows (handleEvent c ev n) :=
  (Node.Flows.trans (m := countEvent ev n) {} (flows_routeEvent c ev)).trans
    ((flows_reportEvent c ev).trans (flows_settle c))

theorem flows_raise (code : FaultCode) : n.Flows (raise c code n) :=
  (flows_settle c).trans (flows_handleEvent c _)

theorem flows_raiseAll (codes : List FaultCode) : n.Flows (raiseAll c codes n) := by
  have hall : ∀ (evs : List FaultEvent) (m : Node), m.Flows (evs.foldl (fun m ev => handleEvent c ev m) m) := by
    intro evs
    induction evs with
    | nil => exact Node.Flows.refl
    | cons ev evs ih => exact fun m => (flows_handleEvent c ev).trans (ih _)
  exact (flows_settle c).trans (hall _ _)

theorem flows_reassembleNow : n.Flows (reassembleNow c n) := by
  obtain ⟨g, f, h⟩ := reassemble_rest c n
  unfold reassembleNow
  rw [h]
  exact Node.Flows.trans (m := { n with gap := g, flt := f }) {} (flows_settle c)

theorem flows_dropHold (k : HoldCause) : n.Flows (dropHold k n) := by
  refine { memb := ?_ }
  unfold dropHold
  dsimp only
  split
  · exact ⟨_, rfl⟩
  · exact ⟨n.memb.graceTimer, rfl⟩

theorem flows_clearHold (k : HoldCause) : n.Flows (clearHold c k n) := by
  unfold clearHold
  split
  · exact .refl n
  · split
    · exact (flows_dropHold k).trans (flows_reassembleNow c)
    · exact flows_dropHold k

end Sys2Proof.Machine
end

section
/-! SUPPORT. The timers of Ring Membership and the carrier (R22, R24 to R39): what a hold cause makes of the node, a
break of the ring, and the rows that follow from them. -/

namespace Sys2Proof.Machine

set_option Elab.async false

variable {s : State} {m : Node}

/-! ## A hold cause set by a fault (R116, R117, R182) -/

/-- The node once a hold cause is set in a strip state (R39, R116, R117). -/
def Node.holding (c : Settings) (k : HoldCause) (n : Node) : Node := { n with
  seq := { n.seq with
    holds := n.seq.holds.put k true
    holdCount := if n.seq.holds.any then n.seq.holdCount else satInc n.seq.holdCount }
  gap := (if n.seq.holds.any then n.gap else
    { n.gap with frozenTrim := n.gap.gapTrim, frozenProfile := n.gap.profileTrim })
  memb := { n.memb with
    graceTimer := if k = .ring ∧ n.seq.holds.has k = false then some c.config.ringBreakGrace
      else n.memb.graceTimer } }

theorem Holds.any_of_has {h : Holds} {k : HoldCause} (hk : h.has k = true) : h.any = true := by
  cases k <;> simp_all [Holds.has, Holds.any]

theorem Holds.put_of_has {h : Holds} {k : HoldCause} {b : Bool} (hk : h.has k = b) : h.put k b = h := by
  cases k <;> exact hk ▸ rfl

theorem setHold_holding (c : Settings) (k : HoldCause) {n : Node} (hs : n.seq.stand.strip = true) :
    setHold c k n = n.holding c k := by
  unfold setHold Node.holding
  cases hk : n.seq.holds.has k with
  | true => simp [hs, Holds.any_of_has hk, Holds.put_of_has hk]
  | false =>
    cases hany : n.seq.holds.any with
    | true => by_cases hr : k = .ring <;> simp [hs, hr]
    | false => by_cases hr : k = .ring <;> simp [hs, hr]

/-- A NONFATAL fault in a strip state under the route HOLD sets its cause and touches the transmit side. -/
theorem raise_holding (c : Settings) (n : Node) (code : FaultCode) (k : HoldCause)
    (hs : n.seq.stand.strip = true) (hn : code.cls n.seq.stand = .nonfatal)
    (hh : c.config.route = .hold) (hk : code.holdCause = some k) :
    ∃ r f, raise c code n = { n.holding c k with ring := r, flt := f } := by
  rw [raise_hold c n code k hn hh hk, setHold_holding c k (by exact hs)]
  exact ⟨_, _, rfl⟩

/-! ## NEIGHBOUR_LOST and the liveness timer (R35) -/

theorem cls_neighbourLost_idle {st : StandState} (h : st.strip = false) :
    FaultCode.neighbourLost.cls st = .correctable := by simp [FaultCode.cls, h]

theorem cls_neighbourLost_strip {st : StandState} (h : st.strip = true) :
    FaultCode.neighbourLost.cls st = .nonfatal := by simp [FaultCode.cls, h]

theorem livenessExpiry_ranOut (c : Settings) (w : Neighbour) {n : Node} (h : (n.memb.record w).timer = some 0) :
    livenessExpiry c w n =
      raise c .neighbourLost { n with memb := n.memb.putRecord w { n.memb.record w with
        mark := .lost, timer := none, lostCount := satInc (n.memb.record w).lostCount } } := by
  simp [livenessExpiry, h, NeighbourRec.lose]

theorem Membership.putRecord_ring (b : Membership) (w : Neighbour) (r : NeighbourRec) :
    (b.putRecord w r).ring = b.ring := by cases w <;> rfl

/-- Settles O34: by whether the timer has run out, and by the class and the route of NEIGHBOUR_LOST. -/
theorem livenessTimerLosesNeighbour : Obligations.LivenessTimerLosesNeighbour := by
  intro w s hl r lost
  have hexec : exec (.livenessTimerExpiry w) s = s.act (fun c n => livenessExpiry c w n) := rfl
  refine ⟨fun hout => ?_, fun hrun => ?_⟩
  · rw [hexec, State.act_live _ _ hl, livenessExpiry_ranOut _ _ hout]
    have hring : lost.ring = s.node.memb.ring := Membership.putRecord_ring _ _ _
    refine ⟨_, rfl, rfl, fun hs => ⟨?_, ?_, ?_⟩, fun hs hroute => ?_, fun hs hroute hu => ?_⟩
    · rw [withNode_node, finish_memb, raise_memb _ _ _ (cls_neighbourLost_idle (by exact hs))]
    · exact keepsBut_raise (Node.keepsBut_of_overlay rfl) (by decide) (by decide)
        (cls_neighbourLost_idle (by exact hs))
    · exact reports_raise (cls_neighbourLost_idle hs) rfl rfl hring rfl rfl
    · obtain ⟨rr, f, he⟩ := raise_holding s.settings { s.node with memb := lost } .neighbourLost .neighbour
        (by exact hs) (cls_neighbourLost_strip (by exact hs)) hroute rfl
      refine ⟨?_, ?_, reports_hold (cls_neighbourLost_strip hs) hroute rfl rfl rfl hring rfl rfl, ?_, ?_⟩
      · exact congrArg Node.memb he
      · refine keepsBut_finish ?_ (by decide) (by decide)
        exact he ▸ Node.keepsBut_of_overlay rfl
      · exact congrArg Node.seq he
      · exact congrArg Node.gap he
    · exact raise_tripsOn s.settings { s.node with memb := lost } .neighbourLost hu
        (.inr ⟨cls_neighbourLost_strip hs, hroute⟩)
  · exact act_unchanged (g := fun c n => livenessExpiry c w n) hl (livenessExpiry_running s.node _ w hrun)

/-! ## The grace timer (R39) -/

theorem graceExpiry_held (c : Settings) {n : Node} (h : n.memb.graceTimer = some 0)
    (hr : n.seq.holds.ring = true) : graceExpiry c n =
      raise c .ringBreakExpired { n with memb := { n.memb with graceTimer := none } } := by
  simp [graceExpiry, h, hr]

theorem graceExpiry_released (c : Settings) {n : Node} (h : n.memb.graceTimer = some 0)
    (hr : n.seq.holds.ring = false) :
    graceExpiry c n = { n with memb := { n.memb with graceTimer := none } } := by
  simp [graceExpiry, h, hr]

/-- Settles O35: by whether the timer has run out, and whether RING is set. -/
theorem graceTimerTripsHeldStand : Obligations.GraceTimerTripsHeldStand := by
  intro s hl
  have hexec : exec .ringBreakGraceExpiry s = s.act (fun c n => graceExpiry c n) := rfl
  refine ⟨fun hout hring hu => ?_, fun hout hring => ?_, fun hrun => ?_⟩
  · rw [hexec, State.act_live _ _ hl, graceExpiry_held _ hout hring]
    exact ⟨_, rfl, rfl, rfl, rfl, tripsByFault_raise hu (.inl rfl) rfl rfl⟩
  · rw [hexec, State.act_live _ _ hl, graceExpiry_released _ hout hring]
    exact ⟨_, rfl, rfl, acted_quietly (Node.keepsBut_of_overlay rfl)⟩
  · exact act_unchanged hl (graceExpiry_running s.node _ hrun)

/-! ## A break of the ring (R22, R37 to R39) -/

theorem cls_ringBreak_idle {st : StandState} (h : st.strip = false) :
    FaultCode.ringBreak.cls st = .correctable := by simp [FaultCode.cls, h]

theorem cls_ringBreak_strip {st : StandState} (h : st.strip = true) :
    FaultCode.ringBreak.cls st = .nonfatal := by simp [FaultCode.cls, h]

/-- RING_BREAK raised from a machine whose transmit side has room is what R37 to R39 say. -/
theorem breaksRing_raise (b : State) {r : RingPort} {f : FaultUnit}
    (hroom : b.roomFor 1 → r = b.node.ring ∧ f = b.node.flt) :
    b.breaksRing (b.withNode (finish b.settings (raise b.settings .ringBreak
      { b.node with ring := r, flt := f }))) := by
  refine ⟨fun hs => ⟨?_, fun h1 => ?_⟩, fun hs hroute => ?_, fun hs hroute hu => ?_⟩
  · exact keepsBut_raise (Node.keepsBut_of_overlay rfl) (by decide) (by decide)
      (cls_ringBreak_idle (by exact hs))
  · obtain ⟨rfl, rfl⟩ := hroom h1
    exact reports_raise (cls_ringBreak_idle hs) rfl rfl rfl rfl rfl h1
  · obtain ⟨rr, ff, he⟩ := raise_holding b.settings { b.node with ring := r, flt := f } .ringBreak .ring
      (by exact hs) (cls_ringBreak_strip (by exact hs)) hroute rfl
    refine ⟨?_, fun h1 => ?_, ?_, ?_, ?_⟩
    · refine keepsBut_finish ?_ (by decide) (by decide)
      exact he ▸ Node.keepsBut_of_overlay rfl
    · obtain ⟨rfl, rfl⟩ := hroom h1
      exact reports_hold (cls_ringBreak_strip hs) hroute rfl rfl rfl rfl rfl rfl h1
    · refine (congrArg Node.memb he).trans ?_
      cases hh : b.node.seq.holds.ring <;> simp [Node.holding, Holds.has, hh]
    · exact congrArg Node.seq he
    · exact congrArg Node.gap he
  · refine ⟨raise_tripsOn b.settings { b.node with ring := r, flt := f } .ringBreak hu
      (.inr ⟨cls_ringBreak_strip hs, hroute⟩), fun h2 => ?_⟩
    obtain ⟨rfl, rfl⟩ := hroom (h2.le (by decide))
    exact (tripsByFault_raise (s := b) (m := b.node) hu (.inr ⟨cls_ringBreak_strip hs, hroute⟩) rfl rfl).2 h2

/-! ## The carrier (R24 to R30) -/

/-- A carrier row acts on the node with the new level. -/
theorem exec_carrierLock (hl : s.live) : exec .carrierLock s = .next (s.withNode (finish s.settings
    (carrierLocked s.settings (s.node.withPins { s.node.pins with carrier := true })))) :=
  State.input_live _ { s.node.pins with carrier := true } (fun c _ n => carrierLocked c n) hl

theorem exec_carrierLoss (hl : s.live) : exec .carrierLoss s = .next (s.withNode (finish s.settings
    (carrierLost s.settings (s.node.withPins { s.node.pins with carrier := false })))) :=
  State.input_live _ { s.node.pins with carrier := false } (fun c _ n => carrierLost c n) hl

section Lock
variable (c : Settings) {n : Node}

theorem carrierLocked_again (h : n.memb.carrierLocked = true) : carrierLocked c n = n := if_pos h

theorem carrierLocked_claims (h : n.memb.carrierLocked = false)
    (hr : n.memb.ring = .dark ∧ n.seq.stand ≠ .starting ∨ n.memb.ring = .broken) :
    carrierLocked c n = enterClaiming c { n with memb := { n.memb with carrierLocked := true } } := by
  unfold carrierLocked
  obtain ⟨hr, hs⟩ | hr := hr
  · simp [h, hr, hs]
  · simp [h, hr]

theorem carrierLocked_stays (h : n.memb.carrierLocked = false)
    (hr : ¬ (n.memb.ring = .dark ∧ n.seq.stand ≠ .starting ∨ n.memb.ring = .broken)) :
    carrierLocked c n = { n with memb := { n.memb with carrierLocked := true } } := by
  unfold carrierLocked
  rw [if_neg (by simp [h])]
  dsimp only
  split
  next hd =>
    refine if_pos ?_
    by_contra hs
    exact hr (.inl ⟨hd, hs⟩)
  next hb => exact absurd (.inr hb) hr
  next => rfl

end Lock

/-- Entry to CLAIMING, given room: the insert queue holds the CLAIM alone (R26). -/
theorem enterClaiming_room (c : Settings) {n : Node} (hb : n.ring.sending.isSome = true)
    (hw : n.flt.raised = []) : enterClaiming c n = { n with
      memb := { n.memb with ring := .claiming, lockOk := true, beaconTimer := none }
      ring := { n.ring with
        lossCount := 0, passRun := 0
        flushedCount := satAdd n.ring.flushedCount n.ring.insertQueue.length
        insertQueue := [claimFrame c] } } :=
  offerNow_room c _ (claimFrame c) (by exact hb) (by exact hw) (by exact Nat.zero_lt_succ 15) (by rfl) rfl

theorem State.roomFor.pins {k : Nat} (h : s.roomFor k) (p : Pins) : (s.withNode (s.node.withPins p)).roomFor k := h

/-- The first half of O30: a lock, by the status and the ring state. -/
theorem carrierLock_moves (hl : s.live) :
    ∃ t, exec .carrierLock s = .next t ∧ t.node.pins = { s.node.pins with carrier := true } ∧
      (if s.node.memb.carrierLocked then s.keepsBut [.pins, .ring, .flt] t ∧ s.offers [] t
       else if s.node.memb.ring = .dark ∧ s.node.seq.stand ≠ .starting ∨ s.node.memb.ring = .broken then
         t.node.memb = { s.node.memb with
           carrierLocked := true, ring := .claiming, lockOk := true, beaconTimer := none } ∧
         s.keepsBut [.pins, .memb, .ring, .flt] t ∧
         (s.roomFor 0 → t.node.flt = s.node.flt ∧
           t.node.ring = { s.node.ring with
             lossCount := 0, passRun := 0
             flushedCount := satAdd s.node.ring.flushedCount s.node.ring.insertQueue.length
             insertQueue := [{ kind := .claim, dest := 31, fatal := false
                               payload := [byte s.settings.config.standIndex] }] })
       else t.node.memb = { s.node.memb with carrierLocked := true } ∧
         s.keepsBut [.pins, .memb, .ring, .flt] t ∧ s.offers [] t) := by
  refine ⟨_, exec_carrierLock hl, ?_⟩
  split
  next hlock =>
    rw [carrierLocked_again _ (by exact hlock)]
    exact ⟨rfl, acted_quietly (Node.keepsBut_of_overlay rfl)⟩
  next hlock =>
    have hlock : s.node.memb.carrierLocked = false := Bool.eq_false_iff.mpr hlock
    split
    next hr =>
      rw [carrierLocked_claims _ (by exact hlock) (by exact hr)]
      refine ⟨rfl, rfl, keepsBut_finish (Node.keepsBut_of_overlay rfl) (by decide) (by decide), fun h0 => ?_⟩
      rw [enterClaiming_room _ (by exact h0.1) (by exact h0.2.1), finish_quiet _ _ (by exact h0.1) (by exact h0.2.1)]
      exact ⟨rfl, rfl⟩
    next hr =>
      rw [carrierLocked_stays _ (by exact hlock) (by exact hr)]
      exact ⟨rfl, rfl, acted_quietly (Node.keepsBut_of_overlay rfl)⟩

/-! ### A loss -/

section Loss
variable (c : Settings) {n : Node}

/-- The node once a loss is known, before the ring state goes on (R24). -/
def Node.unlocked (n : Node) : Node := { n with memb := { n.memb with
  carrierLocked := false, carrierLossCount := satInc n.memb.carrierLossCount } }

theorem carrierLost_again (h : n.memb.carrierLocked = false) : carrierLost c n = n := if_pos (by simp [h])

theorem carrierLost_dark (h : n.memb.carrierLocked = true)
    (hr : n.memb.ring = .claiming ∨ n.memb.ring = .seeking) : carrierLost c n = enterDark c n.unlocked := by
  unfold carrierLost
  obtain hr | hr := hr <;> simp [h, hr, Node.unlocked]

theorem carrierLost_broken (h : n.memb.carrierLocked = true) (hr : n.memb.ring = .joined) :
    carrierLost c n = enterBroken c n.unlocked := by
  unfold carrierLost
  simp [h, hr, Node.unlocked]

theorem carrierLost_stays (h : n.memb.carrierLocked = true)
    (hr : n.memb.ring = .dark ∨ n.memb.ring = .broken ∨ n.memb.ring = .conflict) :
    carrierLost c n = n.unlocked := by
  unfold carrierLost
  obtain hr | hr | hr := hr <;> simp [h, hr, Node.unlocked]

/-- The node that has entered DARK, before the link is served (R23, R25). -/
def Node.darkened (n : Node) : Node := { n with
  memb := { n.memb with
    ring := .dark, lockOk := false, claimOk := false, neighboursOk := false, ringOpen := false
    beaconTimer := none, seekTimer := none }
  ring := { n.ring with
    lossCount := 0, outstanding := [], insertQueue := [], passRun := 0
    flushedCount := satAdd n.ring.flushedCount n.ring.insertQueue.length } }

theorem enterDark_eq : enterDark c n = pump c n.darkened := rfl

/-- The node that has entered BROKEN, before the link is served (R30, R37). -/
def Node.brokenOff (n : Node) : Node := { n with
  memb := { n.memb with
    ring := .broken, lockOk := false, claimOk := false, neighboursOk := false, ringOpen := false
    breakRecord := .link }
  ring := { n.ring with lossCount := 0, outstanding := [] } }

theorem enterBroken_eq : enterBroken c n = raise c .ringBreak (pump c n.brokenOff) := rfl

end Loss

/-- A loss in CLAIMING or SEEKING (R25, R27, R29). -/
theorem carrierLoss_darkens (hlock : s.node.memb.carrierLocked = true)
    (hr : s.node.memb.ring = .claiming ∨ s.node.memb.ring = .seeking) :
    let t := s.withNode (finish s.settings
      (carrierLost s.settings (s.node.withPins { s.node.pins with carrier := false })))
    t.node.memb = s.node.unlocked.darkened.memb ∧ t.node.ring.outstanding = [] ∧
      t.node.ring.insertQueue = [] ∧ t.node.ring.lossCount = 0 ∧ s.keepsBut [.pins, .memb, .ring, .flt] t := by
  rw [carrierLost_dark _ (by exact hlock) (by exact hr), enterDark_eq]
  have hflows := (flows_pumpNode s.settings (n := (s.node.withPins
    { s.node.pins with carrier := false }).unlocked.darkened)).trans (flows_finish s.settings)
  exact ⟨rfl, hflows.ring.kept (.inr rfl), hflows.ring.mute (.inl rfl), hflows.ring.loss,
    keepsBut_finish (Node.keepsBut_of_overlay rfl) (by decide) (by decide)⟩

/-- A loss in JOINED (R30, R37). -/
theorem carrierLoss_breaks (hlock : s.node.memb.carrierLocked = true) (hr : s.node.memb.ring = .joined) :
    let b := s.withNode (s.node.withPins { s.node.pins with carrier := false }).unlocked.brokenOff
    let t := s.withNode (finish s.settings
      (carrierLost s.settings (s.node.withPins { s.node.pins with carrier := false })))
    (∃ g, t.node.memb = { b.node.memb with graceTimer := g }) ∧ t.node.ring.outstanding = [] ∧
      b.breaksRing t := by
  intro b
  rw [carrierLost_broken _ (by exact hlock) (by exact hr), enterBroken_eq]
  have hflows := ((flows_pumpNode s.settings (n := b.node)).trans (flows_raise s.settings .ringBreak)).trans
    (flows_finish s.settings)
  exact ⟨hflows.memb, hflows.ring.kept (.inr rfl),
    breaksRing_raise b fun h1 => ⟨RingPort.pump_busy _ _ _ h1.1, rfl⟩⟩

theorem carrierLost_pins (c : Settings) (n : Node) : (carrierLost c n).pins = n.pins := by
  unfold carrierLost
  split
  · rfl
  · dsimp only
    split
    · rfl
    · rfl
    · rw [enterBroken_eq]
      exact (raise_kept c (pump c _) .ringBreak).2.1
    · rfl

/-- Settles O30: a lock and a loss, each by the carrier's status and the ring state. -/
theorem carrierChangesMoveRingState : Obligations.CarrierChangesMoveRingState := by
  refine ⟨fun s hl => carrierLock_moves hl, fun s hl => ⟨_, exec_carrierLoss hl, carrierLost_pins _ _, ?_⟩⟩
  split
  next hlock =>
    rw [carrierLost_again _ (by exact hlock)]
    exact acted_quietly (Node.keepsBut_of_overlay rfl)
  next hlock =>
    have hlock : s.node.memb.carrierLocked = true := Bool.of_not_eq_false hlock
    cases hr : s.node.memb.ring with
    | claiming =>
      obtain ⟨hm, ho, hq, hc, hk⟩ := carrierLoss_darkens hlock (.inl hr)
      rw [hm]
      exact ⟨rfl, rfl, rfl, rfl, rfl, rfl, rfl, rfl, rfl, ho, hq, hc, hk⟩
    | seeking =>
      obtain ⟨hm, ho, hq, hc, hk⟩ := carrierLoss_darkens hlock (.inr hr)
      rw [hm]
      exact ⟨rfl, rfl, rfl, rfl, rfl, rfl, rfl, rfl, rfl, ho, hq, hc, hk⟩
    | joined =>
      obtain ⟨⟨g, hm⟩, ho, hbreak⟩ := carrierLoss_breaks hlock hr
      rw [hm]
      exact ⟨rfl, rfl, rfl, rfl, rfl, rfl, rfl, rfl, rfl, ho, hbreak⟩
    | dark =>
      rw [carrierLost_stays _ (by exact hlock) (by exact .inl hr)]
      exact ⟨rfl, rfl, rfl, acted_quietly (Node.keepsBut_of_overlay rfl)⟩
    | broken =>
      rw [carrierLost_stays _ (by exact hlock) (by exact .inr (.inl hr))]
      exact ⟨rfl, rfl, rfl, acted_quietly (Node.keepsBut_of_overlay rfl)⟩
    | conflict =>
      rw [carrierLost_stays _ (by exact hlock) (by exact .inr (.inr hr))]
      exact ⟨rfl, rfl, rfl, acted_quietly (Node.keepsBut_of_overlay rfl)⟩

/-! ## The beacon timer (R32, R33) -/

/-- An offer that the ring state does not admit changes nothing (R13). -/
theorem offerNow_refused (c : Settings) {n : Node} {o : OwnFrame} (ha : n.memb.ring.admits o.kind = false)
    (hw : n.flt.raised = []) : offerNow c o n = n := by
  have hoffer : offer c o n = n := by
    simp only [offer, Rep.offer, RingPort.place, ctxOf, ha, Bool.not_false, if_true]
  rw [offerNow, hoffer, settle_none _ _ hw]

theorem beaconExpiry_ranOut (c : Settings) {n : Node} (h : n.memb.beaconTimer = some 0) :
    beaconExpiry c n = offerNow c (n.beacon c.config)
      { n with memb := { n.memb with beaconTimer := some c.config.beaconInterval } } := by
  simp only [beaconExpiry, timerOut_iff, h, if_true, sendBeacon, beaconFrame_eq_beacon]

/-- The first half of O33: by whether the beacon timer has run out. -/
theorem beaconTimer_acts (hl : s.live) :
    (s.node.memb.beaconTimer = some 0 →
       ∃ t, exec .beaconTimerExpiry s = .next t ∧
         t.node.memb = { s.node.memb with beaconTimer := some s.settings.config.beaconInterval } ∧
         s.keepsBut [.memb, .ring, .flt] t ∧
         (s.node.memb.ring.admits .beacon = true →
           s.offers [s.node.beacon s.settings.config] t) ∧
         (s.node.memb.ring.admits .beacon = false → s.offers [] t)) ∧
     (s.node.memb.beaconTimer ≠ some 0 →
       ∃ t, exec .beaconTimerExpiry s = .next t ∧ s.keepsBut [.ring, .flt] t ∧ s.offers [] t) := by
  have hexec : exec .beaconTimerExpiry s = s.act (fun c n => beaconExpiry c n) := rfl
  refine ⟨fun hout => ?_, fun hrun => ?_⟩
  · rw [hexec, State.act_live _ _ hl, beaconExpiry_ranOut _ hout]
    refine ⟨_, rfl, rfl, keepsBut_finish (Node.keepsBut_of_overlay rfl) (by decide) (by decide),
      fun ha => offers_of_sent fun hroom => ?_, fun ha => offers_of_sent fun hroom => ?_⟩
    · exact (State.sent_nil).offerNow hroom ha rfl
    · rw [offerNow_refused _ (by exact ha) (by exact hroom.2.1)]
      exact State.sent_nil
  · exact act_unchanged (g := fun c n => beaconExpiry c n) hl (beaconExpiry_running s.node _ hrun)

/-! ## The seek timer (R29, R37) -/

theorem clearHold_unset (c : Settings) (k : HoldCause) {n : Node} (h : n.seq.holds.has k = false) :
    clearHold c k n = n := if_pos (by simp [h])

/-- Several CORRECTABLE faults touch the transmit side only. -/
theorem raiseAll_correctable (c : Settings) {codes : List FaultCode} {n : Node}
    (h : ∀ k ∈ codes, k.cls n.seq.stand = .correctable) :
    ∃ r f, raiseAll c codes n = { n with ring := r, flt := f } := by
  have hall : ∀ (evs : List FaultEvent) (m : Node), (∀ ev ∈ evs, ev.cls = .correctable) →
      ∃ r f, evs.foldl (fun m ev => handleEvent c ev m) m = { m with ring := r, flt := f } := by
    intro evs
    induction evs with
    | nil => exact fun m _ => ⟨m.ring, m.flt, rfl⟩
    | cons ev evs ih =>
      intro m hev
      have hone : ∃ r f, handleEvent c ev m = { m with ring := r, flt := f } := by
        unfold handleEvent
        rw [routeEvent_correctable _ _ _ (hev ev List.mem_cons_self)]
        exact ⟨_, _, rfl⟩
      obtain ⟨r, f, h1⟩ := hone
      obtain ⟨r', f', h2⟩ := ih { m with ring := r, flt := f } fun e he => hev e (List.mem_cons_of_mem _ he)
      exact ⟨r', f', by rw [List.foldl_cons, h1, h2]⟩
  obtain ⟨r, f, hfold⟩ := hall (codes.map fun k => eventOf k n) (settle c n) (by simpa [eventOf] using h)
  exact ⟨r, f, hfold⟩

/-- Neighbours lost in a strip state under the route HOLD set the cause NEIGHBOUR, and no more of the
Sequencer's state than that. -/
theorem raiseAll_neighbourLost_holds (c : Settings) {codes : List FaultCode} {n : Node}
    (hcodes : ∀ k ∈ codes, k = .neighbourLost) (hne : codes ≠ []) (hs : n.seq.stand.strip = true)
    (hroute : c.config.route = .hold) :
    (raiseAll c codes n).seq.holds.neighbour = true ∧ (raiseAll c codes n).seq.stand = n.seq.stand := by
  have hone : ∀ (ev : FaultEvent) (m : Node), ev = eventOf .neighbourLost n → m.seq.stand = n.seq.stand →
      (handleEvent c ev m).seq.holds.neighbour = true ∧ (handleEvent c ev m).seq.stand = n.seq.stand := by
    intro ev m hev hm
    have hroutes : routeEvent c ev (countEvent ev m) = setHold c .neighbour (countEvent ev m) := by
      rw [hev]
      simp only [routeEvent, eventOf, cls_neighbourLost_strip hs, hroute, FaultCode.holdCause]
    have hset := setHold_holding c .neighbour (n := countEvent ev m) (by exact hm ▸ hs)
    have hseq : (handleEvent c ev m).seq = ((countEvent ev m).holding c .neighbour).seq := by
      rw [← hset, ← hroutes]; rfl
    rw [hseq]
    exact ⟨rfl, hm⟩
  have hall : ∀ (evs : List FaultEvent) (m : Node), (∀ ev ∈ evs, ev = eventOf .neighbourLost n) →
      m.seq.stand = n.seq.stand → (m.seq.holds.neighbour = true ∨ evs ≠ []) →
      (evs.foldl (fun m ev => handleEvent c ev m) m).seq.holds.neighbour = true ∧
        (evs.foldl (fun m ev => handleEvent c ev m) m).seq.stand = n.seq.stand := by
    intro evs
    induction evs with
    | nil => exact fun m _ hm hn => ⟨hn.resolve_right fun h => h rfl, hm⟩
    | cons ev evs ih =>
      intro m hev hm _
      obtain ⟨hheld, hstand⟩ := hone ev m (hev ev List.mem_cons_self) hm
      exact ih _ (fun e he => hev e (List.mem_cons_of_mem _ he)) hstand (.inl hheld)
  refine hall _ (settle c n) (fun ev hev => ?_) rfl (.inr (by simpa using hne))
  obtain ⟨k, hk, rfl⟩ := List.mem_map.mp hev
  rw [hcodes k hk]

/-- The neighbours that a seek ends without (R29), as the faults it raises. -/
def Membership.seekLosses (b : Membership) : List FaultCode :=
  (if b.upstream.unheardInSeek then [FaultCode.neighbourLost] else []) ++
    (if b.downstream.unheardInSeek then [FaultCode.neighbourLost] else [])

/-- The membership at the end of a seek (R29, R37). -/
def Membership.seekOver (b : Membership) : Membership := { b with
  ring := .joined, seekTimer := none, neighboursOk := false, breakRecord := .none
  upstream := b.upstream.seekEnds, downstream := b.downstream.seekEnds }

theorem Membership.seekLosses_eq (b : Membership) : ∀ k ∈ b.seekLosses, k = .neighbourLost := by
  unfold seekLosses
  intro k hk
  obtain hk | hk := List.mem_append.mp hk
  · split at hk <;> simp_all
  · split at hk <;> simp_all

theorem Membership.seekLosses_ne_nil {b : Membership}
    (h : b.upstream.seekEnds ≠ b.upstream ∨ b.downstream.seekEnds ≠ b.downstream) : b.seekLosses ≠ [] := by
  have hlost {r : NeighbourRec} (hr : r.seekEnds ≠ r) : r.unheardInSeek = true := by
    by_contra hno
    exact hr (if_neg hno)
  obtain h | h := h <;> simp [seekLosses, hlost h]

/-- The node that has entered JOINED, before the cause RING is cleared (R29, R37). -/
def Node.joining (both : Bool) (n : Node) : Node := { n with
  memb := { n.memb with ring := .joined, seekTimer := none, neighboursOk := both, breakRecord := .none }
  ring := { n.ring with lossCount := 0 } }

theorem enterJoined_eq (c : Settings) (both : Bool) (n : Node) :
    enterJoined c both n = clearHold c .ring (pump c (n.joining both)) := rfl

/-- A seek timer that has run out: the node enters JOINED, and the neighbours not heard are lost. -/
theorem seekExpiry_ranOut (c : Settings) {n : Node} (hr : n.memb.ring = .seeking)
    (ht : n.memb.seekTimer = some 0) : ∃ m : Node, seekExpiry c n = raiseAll c n.memb.seekLosses m ∧
      (∃ g, m.memb = { n.memb.seekOver with graceTimer := g }) ∧
      m.seq = { n.seq with holds := n.seq.holds.put .ring false } ∧
      (n.seq.holds.ring = false → n.keepsBut [.memb, .ring, .flt] m) := by
  obtain ⟨g, hg⟩ := ((flows_pumpNode c (n := n.joining false)).trans (flows_clearHold c .ring)).memb
  rw [← enterJoined_eq] at hg
  have hseek : seekExpiry c n = raiseAll c (enterJoined c false n).memb.seekLosses { enterJoined c false n with
      memb := { (enterJoined c false n).memb with
        upstream := (enterJoined c false n).memb.upstream.seekEnds
        downstream := (enterJoined c false n).memb.downstream.seekEnds } } := by
    simp [seekExpiry, hr, ht, Membership.seekLosses]
  rw [hseek, hg]
  refine ⟨_, rfl, ⟨g, rfl⟩, ?_, fun hring => ?_⟩
  · obtain ⟨m', g', r, f, hclear⟩ := clearHold_rest c .ring (pump c (n.joining false))
    exact congrArg Node.seq hclear
  · rw [enterJoined_eq, clearHold_unset _ _ (by exact hring)]
    exact Node.keepsBut_of_overlay rfl

theorem NeighbourRec.seekEnds_eq (r : NeighbourRec) : r.seekEnds =
    if r.heardInSeek = false ∧ r.mark = .unheard then
      { r with mark := .lost, timer := none, lostCount := satInc r.lostCount } else r := by
  simp only [seekEnds, unheardInSeek, lose, Bool.and_eq_true, Bool.not_eq_true', decide_eq_true_eq]

/-- What keeps other parts keeps them when the transmit side changes as well. -/
theorem Node.keepsBut_transmit {bs : List Block} {n m : Node} {r : RingPort} {f : FaultUnit}
    (hk : n.keepsBut bs m) (hr : Block.ring ∈ bs := by decide) (hf : Block.flt ∈ bs := by decide) :
    n.keepsBut bs { m with ring := r, flt := f } := by
  intro b hb
  have hagree := hk b hb
  cases b with
  | ring => exact absurd hr hb
  | flt => exact absurd hf hb
  | _ => exact hagree

/-- Settles O33: the beacon timer offers the node's BEACON; the seek timer joins the ring, and loses the
neighbours that were never heard. -/
theorem beaconAndSeekTimersAct : Obligations.BeaconAndSeekTimersAct := by
  refine ⟨fun s hl => beaconTimer_acts hl, ?_⟩
  intro s hl m ends
  refine ⟨fun hr hout => ?_, fun hno => ?_⟩
  · have hexec : exec .seekTimerExpiry s = s.act (fun c n => seekExpiry c n) := rfl
    have hends : ∀ r, ends r = r.seekEnds := fun r => (NeighbourRec.seekEnds_eq r).symm
    obtain ⟨k, hk, ⟨g, hmemb⟩, hseq, hkeeps⟩ := seekExpiry_ranOut s.settings hr hout
    obtain ⟨g', hm⟩ := ((flows_raiseAll s.settings (n := k) s.node.memb.seekLosses).trans
      (flows_finish s.settings)).memb
    rw [hmemb] at hm
    rw [hexec, State.act_live _ _ hl, hk]
    simp only [hends]
    refine ⟨_, rfl, rfl, ?_⟩
    rw [withNode_node, hm]
    refine ⟨rfl, rfl, rfl, rfl, rfl, rfl, rfl, fun hs hring => ?_, fun hs hroute hlost => ?_⟩
    · refine keepsBut_finish ?_ (by decide) (by decide)
      obtain ⟨r, f, hraise⟩ := raiseAll_correctable s.settings (codes := s.node.memb.seekLosses) (n := k)
        fun code hcode => by
          rw [Membership.seekLosses_eq _ code hcode, hseq]
          exact cls_neighbourLost_idle hs
      rw [hraise]
      exact Node.keepsBut_transmit (hkeeps hring)
    · have hheld := raiseAll_neighbourLost_holds s.settings (n := k) (Membership.seekLosses_eq _)
        (Membership.seekLosses_ne_nil hlost) (by rw [hseq]; exact hs) hroute
      exact ⟨hheld.1, hheld.2.trans (by rw [hseq])⟩
  · refine act_unchanged (g := fun c n => seekExpiry c n) hl ?_
    obtain hring | hrun := hno
    · exact if_neg (by simp [show s.node.memb.ring ≠ .seeking from hring])
    · exact seekExpiry_running s.node _ hrun

end Sys2Proof.Machine
end

section
/-! SUPPORT. The arbiter's choice at the end of a transmission (R17 to R19, Table 1-4). -/

namespace Sys2Proof.Machine

set_option Elab.async false

variable {s : State} {p : RingPort} {m : RingState} (b : Byte)

theorem RingState.sendsTrip_iff : m.sendsTrip = true ↔ m = .seeking ∨ m = .joined ∨ m = .broken := by
  cases m <;> simp [RingState.sendsTrip]

/-- The eligibility of the insert queue (R17), over the ring states. -/
theorem RingPort.eligible_eq (p : RingPort) (m : RingState) : p.eligible m = (!p.insertQueue.isEmpty &&
    (m = .broken || (m = .claiming || m = .seeking || m = .joined) && p.outstanding.length < 8)) := by
  cases m <;> simp [RingPort.eligible]

/-- A queue that is eligible is tracked in every state but BROKEN (R19). -/
theorem tracks_of_eligible (h : p.eligible m = true) : m.tracks = (m ≠ .broken : Bool) := by
  cases m with
  | dark => simp [RingPort.eligible] at h
  | conflict => simp [RingPort.eligible] at h
  | _ => rfl

/-- A TRIP frame is tracked in SEEKING and JOINED alone (R19). -/
theorem tracks_of_sendsTrip (h : m.sendsTrip = true) : m.tracks = (m = .seeking || m = .joined : Bool) := by
  cases m with
  | dark => cases h
  | claiming => cases h
  | conflict => cases h
  | _ => rfl

/-- The trip slot in a ring state that sends it. -/
def RingPort.slotSent (p : RingPort) (m : RingState) : Option OwnFrame :=
  if m = .seeking ∨ m = .joined ∨ m = .broken then p.tripSlot else none

theorem select_trip {o : OwnFrame} (h : p.slotSent m = some o) : p.select b m =
    ({ p with tripSlot := none }).sendOwn b o ((m = RingState.seeking || m = RingState.joined) && p.outstanding.length < 8) := by
  unfold RingPort.slotSent at h
  split at h
  next hm =>
    have hsends := RingState.sendsTrip_iff.mpr hm
    simp only [RingPort.select, h, hsends, if_true, tracks_of_sendsTrip hsends]
  next => cases h

theorem select_queued (h : p.slotSent m = none) : p.select b m = p.selectQueued b m := by
  unfold RingPort.slotSent at h
  unfold RingPort.select
  split at h
  next => rw [h]
  next hm =>
    split
    · rw [if_neg (mt RingState.sendsTrip_iff.mp hm)]
    · rfl

theorem selectQueued_pass {f : Frame} {rest : List Frame} (hp : p.passBuffer = f :: rest)
    (h : p.passRun < 8 ∨ p.eligible m = false) : p.selectQueued b m = p.sendPass m f rest := by
  unfold RingPort.selectQueued
  rw [hp]
  exact if_pos (by simpa using h)

theorem selectQueued_turn {f : Frame} {rest : List Frame} {o : OwnFrame} {more : List OwnFrame}
    (hp : p.passBuffer = f :: rest) (hq : p.insertQueue = o :: more)
    (h : ¬ (p.passRun < 8 ∨ p.eligible m = false)) :
    p.selectQueued b m = ({ p with insertQueue := more }).sendOwn b o (m ≠ RingState.broken) := by
  have he : p.eligible m = true := Bool.of_not_eq_false fun hf => h (.inr hf)
  unfold RingPort.selectQueued
  rw [hp, ← tracks_of_eligible he, hq]
  exact if_neg (by simpa using h)

theorem selectQueued_insert {o : OwnFrame} {more : List OwnFrame} (hp : p.passBuffer = [])
    (hq : p.insertQueue = o :: more) (he : p.eligible m = true) :
    p.selectQueued b m = ({ p with insertQueue := more }).sendOwn b o (m ≠ RingState.broken) := by
  unfold RingPort.selectQueued
  rw [hp, ← tracks_of_eligible he, hq]
  exact if_pos he

theorem selectQueued_none (hp : p.passBuffer = []) (he : p.eligible m = false) : p.selectQueued b m = p := by
  unfold RingPort.selectQueued
  rw [hp]
  exact if_neg (by simp [he])

/-- The Ring Port once the frame on the link has been sent (R17, R19). -/
def RingPort.ended (x : Sending) (clock : Nat) (p : RingPort) : RingPort := { p with
  sending := none
  outstanding := if x.tracked then p.outstanding.map (stampEntry x.frame.tag clock) else p.outstanding }

theorem length_ended (x : Sending) (clock : Nat) (p : RingPort) :
    (p.ended x clock).outstanding.length = p.outstanding.length := by
  unfold RingPort.ended
  dsimp only
  split
  · exact List.length_map ..
  · rfl

theorem eligible_ended (x : Sending) (clock : Nat) (p : RingPort) :
    (p.ended x clock).eligible m = p.eligible m := by
  rw [RingPort.eligible_eq, RingPort.eligible_eq, length_ended]
  rfl

theorem finish_endTransmission {c : Settings} {n : Node} {x : Sending} (h : n.ring.sending = some x)
    (hw : n.flt.raised = []) : finish c (endTransmission n) =
      { n with ring := (n.ring.ended x n.clock).select (byte c.station) n.memb.ring } := by
  have hend : endTransmission n = { n with ring := n.ring.ended x n.clock } := by
    simp only [endTransmission, h]
    rfl
  rw [hend, finish, settle_none _ _ (by exact hw)]
  rfl

/-- Settles O28: the arbiter's cases, in the order of Table 1-4. -/
theorem transmitEndSelectsNextFrame : Obligations.TransmitEndSelectsNextFrame := by
  intro x s hl hw hx r m out own joined eligible
  have hexec : exec .transmitEnd s = s.act (fun _ n => endTransmission n) := rfl
  have helig : (r.ended x s.node.clock).eligible m = eligible := by
    rw [eligible_ended, RingPort.eligible_eq]
  rw [hexec, State.act_live _ _ hl, finish_endTransmission hx hw]
  refine ⟨_, rfl, ⟨rfl, rfl, rfl, Node.keepsBut_of_overlay rfl⟩, ?_⟩
  rw [withNode_node]
  dsimp only
  cases htrip : (if m = .seeking ∨ m = .joined ∨ m = .broken then r.tripSlot else none) with
  | some o =>
    rw [select_trip (p := r.ended x s.node.clock) (m := m) _ (o := o) htrip, length_ended]
    rfl
  | none =>
    rw [select_queued (p := r.ended x s.node.clock) (m := m) _ htrip]
    cases hp : r.passBuffer with
    | cons f pass =>
      dsimp only
      split
      next hturn =>
        rw [selectQueued_pass (p := r.ended x s.node.clock) (m := m) _ hp (helig ▸ hturn)]
        unfold RingPort.sendPass
        rw [helig]
        rfl
      next hturn =>
        cases hq : r.insertQueue with
        | nil => exact absurd (.inr (by simp [eligible, hq])) hturn
        | cons o more =>
          refine ⟨o, more, rfl, ?_⟩
          rw [selectQueued_turn (p := r.ended x s.node.clock) (m := m) _ hp hq (helig ▸ hturn),
            RingPort.sendOwn, RingPort.ended, hp]
    | nil =>
      cases hq : r.insertQueue with
      | nil =>
        rw [selectQueued_none (p := r.ended x s.node.clock) (m := m) _ hp (by rw [helig]; simp [eligible, hq]),
          RingPort.ended, hp, hq]
      | cons o ins =>
        dsimp only
        split
        next he =>
          rw [selectQueued_insert (p := r.ended x s.node.clock) (m := m) _ hp hq (helig ▸ he),
            RingPort.sendOwn, RingPort.ended, hp]
        next he =>
          rw [selectQueued_none (p := r.ended x s.node.clock) (m := m) _ hp (by rw [helig]; exact Bool.eq_false_iff.mpr he),
            RingPort.ended, hp, hq]

end Sys2Proof.Machine
end

section
/-! SUPPORT. A hold cause cleared (R117, R118): hold end and the reassembly it makes, from any machine whose
transmit side is known. -/

namespace Sys2Proof.Machine

set_option Elab.async false

variable {s : State}

theorem reassemble_without (c : Settings) {n : Node} (hs : n.seq.stand.strip = true)
    (h : n.gap.base = none ∨ n.sched.active = none) : reassemble c n = n := by
  unfold reassemble
  split
  next => rfl
  next hb =>
    rw [if_pos hs]
    rw [h.resolve_left (by simp [hb])]

/-- Whether a reassembly sets the clamp mark is what hold end says, without a hold in a strip state. -/
theorem holdEndClamps_iff {n : Node} (hs : n.seq.stand.strip = true) (hfree : n.seq.holds.any = false)
    {b id : Nat} {r : Schedule} (hb : n.gap.base = some b) (ha : n.sched.active = some (id, r)) :
    n.clampsNow b r = n.holdEndClamps := by
  simp only [Node.clampsNow, Node.holdEndClamps, hb, ha, demand_eq_unheldDemand n b hs hfree, clampNeeded]
  exact Bool.and_comm _ _

/-- The reassembly of a hold end: the Gap Controller, and what it reports. -/
theorem reassembleNow_ends {n : Node} (hs : n.seq.stand.strip = true) (hfree : n.seq.holds.any = false)
    (hring : n.memb.ring = s.node.memb.ring)
    (hev : eventOf .demandClamped n = eventOf .demandClamped s.node)
    (hsent : s.roomFor 0 → s.sent [] n) :
    let t := s.withNode (finish s.settings (reassembleNow s.settings n))
    n.reassembled s.settings.config t.node ∧
      (if n.holdEndClamps then s.reports .demandClamped s.node t else s.offers [] t) := by
  refine ⟨reassembled_reassembleNow s.settings n hs hfree, ?_⟩
  by_cases hknown : n.gap.base = none ∨ n.sched.active = none
  · have hno : n.holdEndClamps = false := by
      unfold Node.holdEndClamps
      obtain h | h := hknown
      · rw [h]; split <;> simp_all
      · rw [h]
    rw [hno, if_neg Bool.false_ne_true]
    refine offers_of_sent fun hroom => ?_
    rw [reassembleNow, reassemble_without _ hs hknown]
    exact (hsent hroom).settle hroom _
  · obtain ⟨b, hb⟩ := Option.ne_none_iff_exists'.mp fun h => hknown (.inl h)
    obtain ⟨⟨id, r⟩, ha⟩ := Option.ne_none_iff_exists'.mp fun h => hknown (.inr h)
    have hclamps := holdEndClamps_iff hs hfree hb ha
    split
    next hyes =>
      exact reports_of_sent fun hroom =>
        reassembleNow_reports hb ha hs (hsent (hroom.le (Nat.zero_le _))) (hclamps.trans hyes) hroom hring hev
    next hno =>
      exact offers_of_sent fun hroom => reassembleNow_sent _ hb ha hs (hsent hroom)
        (hclamps.trans (Bool.eq_false_iff.mpr hno)) hroom

/-- A cause cleared is what R118 says, wherever the rest of the node is the machine's own. -/
theorem recovers_clearHold (k : HoldCause) {mm : Membership} {r : RingPort} {f : FaultUnit}
    (hring : mm.ring = s.node.memb.ring) (hroom : s.roomFor 0 → r = s.node.ring ∧ f = s.node.flt) :
    let t := s.withNode (finish s.settings
      (clearHold s.settings k { s.node with memb := mm, ring := r, flt := f }))
    s.recovers (s.node.seq.holds.put k false) t := by
  have hquiet : ∀ m : Node, m.ring = r → m.flt = f → s.offers [] (s.withNode (finish s.settings m)) := by
    intro m hmr hmf
    refine offers_of_sent fun h0 => ?_
    obtain ⟨hr, hf⟩ := hroom h0
    exact State.sent_nil (hmr.trans hr) (hmf.trans hf)
  cases hk : s.node.seq.holds.has k with
  | false =>
    rw [clearHold_unset _ _ (by exact hk), Holds.put_of_has hk]
    refine ⟨rfl, fun hend => ?_, fun _ => ⟨rfl, hquiet _ rfl rfl⟩⟩
    unfold Node.holdEndsAt at hend
    cases hany : s.node.seq.holds.any <;> simp [hany] at hend
  | true =>
    have hany := Holds.any_of_has hk
    have hdrop : clearHold s.settings k { s.node with memb := mm, ring := r, flt := f } =
        if s.node.holdEndsAt (s.node.seq.holds.put k false) then
          reassembleNow s.settings (dropHold k { s.node with memb := mm, ring := r, flt := f })
        else dropHold k { s.node with memb := mm, ring := r, flt := f } := by
      simp [clearHold, hk, Node.holdEndsAt, hany, dropHold]
    rw [hdrop]
    split
    next hend =>
      have hstrip : s.node.seq.stand.strip = true ∧ (s.node.seq.holds.put k false).any = false := by
        simpa [Node.holdEndsAt, hany] using hend
      obtain ⟨g, hg⟩ := (flows_dropHold (n := { s.node with memb := mm, ring := r, flt := f }) k).memb
      have hends := reassembleNow_ends (s := s)
        (n := dropHold k { s.node with memb := mm, ring := r, flt := f }) hstrip.1 hstrip.2
        (by rw [hg]; exact hring) rfl fun h0 => State.sent_nil (hroom h0).1 (hroom h0).2
      obtain ⟨g', r', f', hre⟩ := reassembleNow_rest s.settings
        (dropHold k { s.node with memb := mm, ring := r, flt := f })
      exact ⟨congrArg Node.seq hre, fun _ => hends, fun hno => absurd hend (by simp [hno])⟩
    next hend =>
      exact ⟨rfl, fun hyes => absurd hyes hend, fun _ => ⟨rfl, hquiet _ rfl rfl⟩⟩

end Sys2Proof.Machine
end

section
/-! SUPPORT. A BEACON from a station that is both neighbours (R34, R35, R118): the refuting state of O32. -/

namespace Sys2Proof.Machine

set_option Elab.async false

/-- Station 5 of a ring of two, in ROLLING with hold cause NEIGHBOUR: station 4 is both neighbours, LOST as the
upstream one and not yet heard as the downstream one. -/
def ringOfTwo : State :=
  let n := Node.powerOn { Pins.initial with carrier := true, loopClosed := true } .running true 0
  { settings := { station := 5, writeProtect := false
                  config := { NodeConfig.unset with upstream := 4, downstream := 4 } }
    paramMem := []
    pending := []
    node := { n with
      memb := { n.memb with
        ring := .joined
        upstream := { NeighbourRec.powerOn with mark := .lost, lostCount := 1 } }
      seq := { n.seq with stand := .rolling, holds := { Holds.empty with neighbour := true } } } }

/-- The header of a frame to ALL from station 4. -/
def bothNeighbours : Header := { source := 4, dest := 31, tag := 9 }

/-- A BEACON of a stand in ROLLING. -/
def rollingBeacon : BeaconPayload :=
  { standIndex := 4, standState := 5, flags := 1, scheduleId := 1, lastClosed := 0, originStation := 0 }

/-- The upstream record is heard while the downstream one is not yet LIVE, and the downstream one was not LOST:
neither step of R35 clears the cause, although both marks are LIVE in the end. -/
theorem ringOfTwo_stays_held :
    (receiveBeacon ringOfTwo.settings bothNeighbours.source (beaconInfo rollingBeacon)
      ringOfTwo.node).seq.holds.neighbour = true := by decide +kernel

/-- Refutes O32: in `ringOfTwo` one BEACON makes both marks LIVE and one of the records was LOST, so that the
statement has the cause NEIGHBOUR cleared; the model, which judges each record as it is heard, keeps it set. -/
theorem not_beaconIsHeard : ¬ Obligations.BeaconIsHeard := by
  unfold Obligations.BeaconIsHeard
  intro h
  have hl : ringOfTwo.live := StartPhase.noConfusion
  have hh : ringOfTwo.hands bothNeighbours := by
    unfold State.hands
    decide +kernel
  obtain ⟨t, ht, _, _, _, _, hseq, _⟩ := h bothNeighbours rollingBeacon ringOfTwo hl hh
  rw [exec_beaconReceived bothNeighbours rollingBeacon hl hh] at ht
  obtain rfl := Host.Outcome.next.inj ht
  have hheld := ringOfTwo_stays_held
  rw [withNode_node, finish_seq] at hseq
  rw [hseq] at hheld
  exact absurd hheld (by decide +kernel)

end Sys2Proof.Machine
end

section
/-! SUPPORT. The counter of OWN_FRAME_LOST through offers and through other fault events (R180). -/

namespace Sys2Proof.Machine

set_option Elab.async false

/-! ## Counters one by one -/

theorem getD_bumpAt_ne (cs : List Nat) {i j : Nat} (h : i ≠ j) : (bumpAt cs i).getD j 0 = cs.getD j 0 := by
  induction cs generalizing i j with
  | nil => rfl
  | cons x cs ih =>
    cases i with
    | zero =>
      cases j with
      | zero => exact absurd rfl h
      | succ j => rfl
    | succ i =>
      cases j with
      | zero => rfl
      | succ j =>
        simp only [bumpAt, List.getD_cons_succ]
        exact ih (by omega)

theorem getD_bumpAt_same (cs : List Nat) {i : Nat} (h : i < cs.length) :
    (bumpAt cs i).getD i 0 = satInc (cs.getD i 0) := by
  induction cs generalizing i with
  | nil => exact absurd h (Nat.not_lt_zero _)
  | cons x cs ih =>
    cases i with
    | zero => rfl
    | succ i =>
      simp only [bumpAt, List.getD_cons_succ]
      exact ih (Nat.lt_of_succ_lt_succ h)

theorem FaultCode.index_inj {k j : FaultCode} (h : j ≠ k) : j.number - 1 ≠ k.number - 1 := by
  revert h
  cases k <;> cases j <;> decide

theorem FaultCode.index_lt (k : FaultCode) : k.number - 1 < 32 := by cases k <;> decide

/-! ## The Fault Unit -/

/-- A code of which no event is left waiting: all but those that an offer and a reassembly raise (R14, R139). -/
def FaultCode.prompt (k : FaultCode) : Prop := k ≠ .insertFull ∧ k ≠ .demandClamped

/-- Nothing that waits is of a code. -/
def FaultUnit.none (k : FaultCode) (f : FaultUnit) : Prop := ∀ ev ∈ f.raised, ev.code ≠ k

/-- From one Fault Unit to another: none but events of other codes have been handled. -/
structure FaultUnit.Spares (k : FaultCode) (f g : FaultUnit) : Prop where
  waits : f.none k → g.none k := by exact id
  counter : f.none k → g.counter k = f.counter k := by exact fun _ => rfl
  whole : f.none k → g.counters.length = f.counters.length := by exact fun _ => rfl

variable {f g u : FaultUnit} {k : FaultCode}

theorem FaultUnit.Spares.refl (f : FaultUnit) : f.Spares k f := {}

theorem FaultUnit.Spares.trans (h : f.Spares k g) (h' : g.Spares k u) : f.Spares k u where
  waits hf := h'.waits (h.waits hf)
  counter hf := (h'.counter (h.waits hf)).trans (h.counter hf)
  whole hf := (h'.whole (h.waits hf)).trans (h.whole hf)

theorem FaultUnit.Spares.of (h : f.none k → f.Spares k g) : f.Spares k g where
  waits hf := (h hf).waits hf
  counter hf := (h hf).counter hf
  whole hf := (h hf).whole hf

theorem none_of_raised_nil (h : f.raised = []) : f.none k := fun _ hev => absurd (h ▸ hev) List.not_mem_nil

theorem spares_defer {ev : FaultEvent} (h : ev.code ≠ k) : f.Spares k (f.defer ev) where
  waits hf := by
    intro e he
    obtain he | he := List.mem_append.mp he
    · exact hf e he
    · rw [List.mem_singleton.mp he]
      exact h

theorem spares_count {ev : FaultEvent} (h : ev.code ≠ k) : f.Spares k (f.count ev) where
  counter _ := getD_bumpAt_ne _ (FaultCode.index_inj h)
  whole _ := length_bumpAt _ _

/-- An event of the code is counted once. -/
theorem counter_count {ev : FaultEvent} (h : ev.code = k) (hlen : f.counters.length = 32) :
    (f.count ev).counter k = satInc (f.counter k) := by
  subst h
  exact getD_bumpAt_same _ (hlen.symm ▸ FaultCode.index_lt _)

section Reports
variable (hk : k.prompt)
include hk

theorem spares_offer (x : Ctx) (o : OwnFrame) (r : Rep) : r.flt.Spares k (r.offer x o).flt := by
  obtain ⟨hfull, _⟩ := hk
  unfold Rep.offer
  split
  · exact .refl _
  · exact spares_defer hfull.symm
  · exact spares_defer hfull.symm
  · exact .refl _

theorem spares_report (x : Ctx) (ev : FaultEvent) (r : Rep) : r.flt.Spares k (r.report x ev).flt := by
  unfold Rep.report
  split
  · exact .refl _
  · split
    · exact FaultUnit.Spares.trans {} (spares_offer hk x (faultFrame ev (r.flt.counter ev.code)) { r with flt :=
        { r.flt with budgetCount := min (r.flt.budgetCount + 1) 255, offered := satInc r.flt.offered } })
    · exact {}

theorem spares_handle (x : Ctx) {ev : FaultEvent} (r : Rep) (h : ev.code ≠ k) :
    r.flt.Spares k (r.handle x ev).flt :=
  (spares_count h).trans (spares_report hk x ev { r with flt := r.flt.count ev })

omit hk in
/-- What each of several other events keeps, all of them keep. -/
theorem spares_foldl {step : Rep → FaultEvent → Rep}
    (h : ∀ (r : Rep) (ev : FaultEvent), ev.code ≠ k → r.flt.Spares k (step r ev).flt)
    (evs : List FaultEvent) (hevs : ∀ ev ∈ evs, ev.code ≠ k) :
    ∀ r : Rep, r.flt.Spares k (evs.foldl step r).flt := by
  induction evs with
  | nil => exact fun r => .refl r.flt
  | cons ev evs ih =>
    exact fun r => (h r ev (hevs ev List.mem_cons_self)).trans
      (ih (fun e he => hevs e (List.mem_cons_of_mem _ he)) _)

omit hk in
/-- A Fault Unit in which nothing waits. -/
theorem spares_clearRaised (r : Rep) : r.flt.Spares k r.clearRaised.flt where
  waits _ := fun _ he => absurd he List.not_mem_nil

theorem spares_handleWhole (x : Ctx) (r : Rep) (ev : FaultEvent) (h : ev.code ≠ k) :
    r.flt.Spares k (r.handleWhole x ev).flt := .of fun hf =>
  have hfirst := (spares_clearRaised r).trans (spares_handle hk x r.clearRaised h)
  hfirst.trans ((spares_clearRaised _).trans
    (spares_foldl (fun q _ hj => spares_handle hk x q hj) _ (hfirst.waits hf) _))

theorem spares_repSettle (x : Ctx) (r : Rep) : r.flt.Spares k (r.settle x).flt := .of fun hf =>
  ((spares_clearRaised r).trans
    (spares_foldl (fun q ev h => spares_handleWhole hk x q ev h) r.flt.raised hf r.clearRaised)).trans
    (spares_clearRaised _)

end Reports

/-! ## On the node -/

variable (hk : k.prompt) (c : Settings) (n : Node)
include hk

theorem spares_settle : n.flt.Spares k (settle c n).flt := spares_repSettle hk (ctxOf c n) ⟨n.ring, n.flt⟩

theorem spares_finish : n.flt.Spares k (finish c n).flt := spares_settle hk c n

theorem spares_offerNow (o : OwnFrame) : n.flt.Spares k (offerNow c o n).flt :=
  (spares_offer hk (ctxOf c n) o ⟨n.ring, n.flt⟩).trans (spares_settle hk c (offer c o n))

theorem spares_reportEvent (ev : FaultEvent) : n.flt.Spares k (reportEvent c ev n).flt :=
  spares_report hk (ctxOf c n) ev ⟨n.ring, n.flt⟩

theorem spares_reassemble : n.flt.Spares k (reassemble c n).flt := by
  obtain ⟨_, hclamped⟩ := hk
  unfold reassemble
  split
  · exact .refl _
  · split
    · dsimp only
      split
      · exact .refl _
      · dsimp only
        split
        · exact spares_defer hclamped.symm
        · exact .refl _
    · exact .refl _

theorem spares_reassembleNow : n.flt.Spares k (reassembleNow c n).flt :=
  (spares_reassemble hk c n).trans (spares_settle hk c _)

theorem spares_clearHold (q : HoldCause) : n.flt.Spares k (clearHold c q n).flt := by
  unfold clearHold
  split
  · exact .refl _
  · split
    · exact spares_reassembleNow hk c (dropHold q n)
    · exact .refl _

/-- A CORRECTABLE fault of the code is counted once. -/
theorem counter_raise {n : Node} (hc : k.cls n.seq.stand = .correctable) (hw : n.flt.raised = [])
    (hlen : n.flt.counters.length = 32) : (raise c k n).flt.counter k = satInc (n.flt.counter k) := by
  rw [raise_eq_of_correctable c n k hc, settle_none c n hw]
  have hclean : (n.flt.count (eventOf k n)).none k := none_of_raised_nil hw
  have hreport := (spares_reportEvent hk c (countEvent (eventOf k n) n) (eventOf k n)).trans (spares_settle hk c _)
  exact (hreport.counter hclean).trans (counter_count rfl hlen)

end Sys2Proof.Machine
end

section
/-! SUPPORT. Own frames that come back (R8, R9): the outstanding list, the entries lost behind the match, and the
ring proved closed. -/

namespace Sys2Proof.Machine

set_option Elab.async false

variable {s : State} (c : Settings)

/-! ## The match -/

theorem splitAtTag_none {tag : Byte} {es : List OutEntry} (h : ∀ x ∈ es, x.tag ≠ tag) :
    splitAtTag tag es = none := by
  induction es with
  | nil => rfl
  | cons e es ih =>
    rw [splitAtTag, if_neg (h e List.mem_cons_self), ih fun x hx => h x (List.mem_cons_of_mem _ hx)]
    rfl

theorem splitAtTag_some {tag : Byte} {older younger : List OutEntry} {e : OutEntry} (he : e.tag = tag)
    (h : ∀ x ∈ older, x.tag ≠ tag) : splitAtTag tag (older ++ e :: younger) = some (older, e) := by
  induction older with
  | nil => exact if_pos he
  | cons x older ih =>
    rw [List.cons_append, splitAtTag, if_neg (h x List.mem_cons_self),
      ih fun y hy => h y (List.mem_cons_of_mem _ hy)]
    rfl

theorem matchReturn_miss {tag : Byte} {n : Node} (h : ∀ x ∈ n.ring.outstanding, x.tag ≠ tag) :
    matchReturn c tag n = { n with ring := { n.ring with unmatchedCount := satInc n.ring.unmatchedCount } } := by
  simp only [matchReturn, splitAtTag_none h]

theorem matchReturn_hit {tag : Byte} {n : Node} {older younger : List OutEntry} {e : OutEntry}
    (ho : n.ring.outstanding = older ++ e :: younger) (he : e.tag = tag) (h : ∀ x ∈ older, x.tag ≠ tag) :
    matchReturn c tag n = dropOldest c (older.foldl (fun m e => loseOlder c e m) n) := by
  simp only [matchReturn, ho, splitAtTag_some he h]

/-! ## What a match touches -/

theorem dropOldest_rest (n : Node) : ∃ r, dropOldest c n = { n with ring := r } := ⟨_, rfl⟩

theorem raise_ownFrameLost_rest (n : Node) : ∃ r f, raise c .ownFrameLost n = { n with ring := r, flt := f } := by
  rw [raise_eq_of_correctable c n .ownFrameLost rfl]
  exact ⟨_, _, rfl⟩

/-- A loss touches the resend count and the transmit side. -/
theorem claimLoss_rest (n : Node) : ∃ k r f, claimLoss c n = { n with
    memb := { n.memb with claimResends := k }, ring := r, flt := f } := by
  unfold claimLoss
  split
  · exact ⟨_, _, _, rfl⟩
  · exact ⟨n.memb.claimResends, n.ring, n.flt, rfl⟩

theorem loseOlder_rest (e : OutEntry) (n : Node) : ∃ k r f, loseOlder c e n = { n with
    memb := { n.memb with claimResends := k }, ring := r, flt := f } := by
  obtain ⟨r, f, hraise⟩ := raise_ownFrameLost_rest c (dropOldest c n)
  unfold loseOlder
  rw [hraise]
  split
  · obtain ⟨k, r', f', hloss⟩ := claimLoss_rest c { dropOldest c n with ring := r, flt := f }
    exact ⟨k, r', f', hloss⟩
  · exact ⟨n.memb.claimResends, r, f, rfl⟩

theorem loseAll_rest (es : List OutEntry) : ∀ n : Node, ∃ k r f, es.foldl (fun m e => loseOlder c e m) n =
    { n with memb := { n.memb with claimResends := k }, ring := r, flt := f } := by
  induction es with
  | nil => exact fun n => ⟨n.memb.claimResends, n.ring, n.flt, rfl⟩
  | cons e es ih =>
    intro n
    obtain ⟨k, r, f, hone⟩ := loseOlder_rest c e n
    obtain ⟨k', r', f', hall⟩ := ih (loseOlder c e n)
    exact ⟨k', r', f', by rw [List.foldl_cons, hall, hone]⟩

theorem matchReturn_rest (tag : Byte) (n : Node) : ∃ k r f, matchReturn c tag n =
    { n with memb := { n.memb with claimResends := k }, ring := r, flt := f } := by
  unfold matchReturn
  split
  · exact ⟨n.memb.claimResends, _, n.flt, rfl⟩
  next older _ _ =>
    obtain ⟨k, r, f, hall⟩ := loseAll_rest c older n
    rw [hall]
    exact ⟨k, _, f, rfl⟩

/-! ## The outstanding list of a busy link -/

/-- From a node to a node on a busy link: the outstanding list becomes `out`, and the unmatched count stays. -/
structure Node.Drops (out : List OutEntry) (n m : Node) : Prop where
  state : m.memb.ring = n.memb.ring
  busy : m.ring.sending.isSome = true
  left : m.ring.outstanding = out
  unmatched : m.ring.unmatchedCount = n.ring.unmatchedCount

variable {n m : Node}

theorem Node.Drops.flows {out : List OutEntry} {k : Node} (h : n.Drops out m) (g : m.Flows k) : n.Drops out k where
  state := g.state.trans h.state
  busy := by rw [g.ring.busy h.busy]; exact h.busy
  left := (g.ring.kept (.inl h.busy)).trans h.left
  unmatched := g.ring.unmatched.trans h.unmatched

theorem drops_dropOldest (hb : n.ring.sending.isSome = true) :
    n.Drops (n.ring.outstanding.drop 1) (dropOldest c n) := by
  have hpump := RingPort.pump_busy { n.ring with outstanding := n.ring.outstanding.drop 1 } (byte c.station)
    n.memb.ring hb
  have hdrop : dropOldest c n = { n with ring := { n.ring with outstanding := n.ring.outstanding.drop 1 } } := by
    unfold dropOldest pump
    rw [hpump]
  rw [hdrop]
  exact ⟨rfl, hb, rfl, rfl⟩

/-- A claim's loss leaves the outstanding list. -/
theorem Node.Drops.claimLoss {out : List OutEntry} (h : n.Drops out m) : n.Drops out (claimLoss c m) := by
  unfold Machine.claimLoss
  split
  · have hoffer := flows_offerNow c (n := { m with memb := { m.memb with claimResends := satInc m.memb.claimResends } })
      (claimFrame c)
    have hcount : n.Drops out { m with memb := { m.memb with claimResends := satInc m.memb.claimResends } } :=
      ⟨h.state, h.busy, h.left, h.unmatched⟩
    exact hcount.flows hoffer
  · exact h

theorem drops_loseOlder (e : OutEntry) (hb : n.ring.sending.isSome = true) :
    n.Drops (n.ring.outstanding.drop 1) (loseOlder c e n) := by
  have hraise := (drops_dropOldest c hb).flows (flows_raise c .ownFrameLost)
  unfold loseOlder
  split
  · exact hraise.claimLoss c
  · exact hraise

theorem drops_loseAll (older rest : List OutEntry) : ∀ n : Node, n.ring.sending.isSome = true →
    n.ring.outstanding = older ++ rest → n.Drops rest (older.foldl (fun m e => loseOlder c e m) n) := by
  induction older with
  | nil => exact fun n hb ho => ⟨rfl, hb, ho, rfl⟩
  | cons e older ih =>
    intro n hb ho
    have hone := drops_loseOlder c e hb
    rw [ho, List.cons_append, List.drop_one, List.tail_cons] at hone
    have hall := ih _ hone.busy hone.left
    exact ⟨hall.state.trans hone.state, hall.busy, hall.left, hall.unmatched.trans hone.unmatched⟩

theorem drops_matchReturn {tag : Byte} {older younger : List OutEntry} {e : OutEntry}
    (ho : n.ring.outstanding = older ++ e :: younger) (he : e.tag = tag) (h : ∀ x ∈ older, x.tag ≠ tag)
    (hb : n.ring.sending.isSome = true) : n.Drops younger (matchReturn c tag n) := by
  have hall := drops_loseAll c older (e :: younger) n hb ho
  have hdrop := drops_dropOldest c hall.busy
  rw [hall.left, List.drop_one, List.tail_cons] at hdrop
  rw [matchReturn_hit c ho he h]
  exact ⟨hdrop.state.trans hall.state, hdrop.busy, hdrop.left, hdrop.unmatched.trans hall.unmatched⟩

/-! ## The losses counted -/

theorem ownFrameLost_prompt : FaultCode.ownFrameLost.prompt :=
  ⟨FaultCode.noConfusion, FaultCode.noConfusion⟩

theorem spares_claimLoss : n.flt.Spares .ownFrameLost (claimLoss c n).flt := by
  unfold claimLoss
  split
  · exact spares_offerNow ownFrameLost_prompt c { n with memb := { n.memb with claimResends := satInc n.memb.claimResends } } _
  · exact .refl _

/-- A loss behind the match is counted once, whatever it is the loss of. -/
theorem counter_loseOlder (e : OutEntry) (hw : n.flt.raised = []) (hlen : n.flt.counters.length = 32) :
    (loseOlder c e n).flt.counter .ownFrameLost = satInc (n.flt.counter .ownFrameLost) := by
  have hraise := counter_raise ownFrameLost_prompt c (n := dropOldest c n) rfl hw hlen
  unfold loseOlder
  split
  · refine ((spares_claimLoss c).counter ?_).trans hraise
    exact fun ev hev => absurd hev List.not_mem_nil
  · exact hraise

theorem claimLoss_raised (hw : n.flt.raised = []) : (claimLoss c n).flt.raised = [] := by
  unfold claimLoss
  split
  · rfl
  · exact hw

theorem loseOlder_raised (e : OutEntry) : (loseOlder c e n).flt.raised = [] := by
  unfold loseOlder
  split
  · exact claimLoss_raised c rfl
  · rfl

theorem loseAll_raised (es : List OutEntry) : ∀ n : Node, n.flt.raised = [] →
    (es.foldl (fun m e => loseOlder c e m) n).flt.raised = [] := by
  induction es with
  | nil => exact fun n hw => hw
  | cons e es ih => exact fun n _ => ih _ (loseOlder_raised c e)

theorem counter_loseAll (es : List OutEntry) : ∀ n : Node, n.flt.raised = [] → n.flt.counters.length = 32 →
    (es.foldl (fun m e => loseOlder c e m) n).flt.counter .ownFrameLost =
      if es = [] then n.flt.counter .ownFrameLost else satAdd (n.flt.counter .ownFrameLost) es.length := by
  induction es with
  | nil => exact fun n _ _ => rfl
  | cons e es ih =>
    intro n hw hlen
    rw [List.foldl_cons, ih _ (loseOlder_raised c e) ((keeps_loseOlder c n e).counters hlen),
      counter_loseOlder c e hw hlen, if_neg (List.cons_ne_nil e es), List.length_cons]
    unfold satInc satAdd
    split
    next hnil => rw [hnil, List.length_nil]
    next => omega

/-! ## The ring proved closed (R9, R37, R38) -/

/-- A return heals a break that it finds open. -/
def Node.heals (n : Node) : Bool := n.memb.ringOpen && n.memb.breakRecord = .ringOpen

/-- The node once a return has proved the ring closed, before RING is cleared. -/
def Node.proved (n : Node) : Node := { n with
  memb := { n.memb with
    ringOpen := false
    breakRecord := if n.heals then .none else n.memb.breakRecord }
  ring := { n.ring with lossCount := 0 } }

theorem ringProved_eq (n : Node) : ringProved c n =
    if n.heals then clearHold c .ring n.proved else n.proved := by
  have hself : n.memb.ringOpen = false → { n.memb with ringOpen := false } = n.memb := by
    intro h
    rw [← h]
  cases hopen : n.memb.ringOpen with
  | false => simp [ringProved, Node.proved, Node.heals, hopen, hself hopen]
  | true =>
    by_cases hrec : n.memb.breakRecord = .ringOpen
    · simp [ringProved, closeRing, Node.proved, Node.heals, hopen, hrec]
    · simp [ringProved, closeRing, Node.proved, Node.heals, hopen, hrec]

/-- RING cleared stops the grace timer, where it was set (R39). -/
theorem clearHold_ring_memb (n : Node) : (clearHold c .ring n).memb = { n.memb with
    graceTimer := if n.seq.holds.ring then none else n.memb.graceTimer } := by
  unfold clearHold
  cases h : n.seq.holds.ring with
  | false => simp [Holds.has, h]
  | true =>
    rw [if_neg (by simp [Holds.has, h])]
    split
    · obtain ⟨g, r, f, hre⟩ := reassembleNow_rest c (dropHold .ring n)
      rw [hre]
      rfl
    · rfl

theorem spares_ringProved (n : Node) : n.flt.Spares .ownFrameLost (ringProved c n).flt := by
  rw [ringProved_eq]
  split
  · exact spares_clearHold ownFrameLost_prompt c n.proved .ring
  · exact .refl _

theorem ringProved_rest (n : Node) : ∃ mm sq g r f, ringProved c n =
    { n with memb := mm, seq := sq, gap := g, ring := r, flt := f } := by
  rw [ringProved_eq]
  split
  · obtain ⟨m, g, r, f, hclear⟩ := clearHold_rest c .ring n.proved
    exact ⟨_, _, _, _, _, hclear⟩
  · exact ⟨n.proved.memb, n.seq, n.gap, n.proved.ring, n.flt, rfl⟩

theorem flows_ringProved (n : Node) : n.proved.Flows (ringProved c n) := by
  rw [ringProved_eq]
  split
  · exact flows_clearHold c .ring
  · exact .refl _

/-- The causes once the ring has been proved closed. -/
def Node.healedHolds (n : Node) : Holds :=
  { n.seq.holds with ring := n.seq.holds.ring && !n.heals }

/-- The membership once the ring has been proved closed. -/
def Node.healedMemb (n : Node) : Membership := { n.memb with
  ringOpen := false
  breakRecord := if n.heals then .none else n.memb.breakRecord
  graceTimer := if n.heals && n.seq.holds.ring then none else n.memb.graceTimer }

theorem ringProved_memb (n : Node) : (ringProved c n).memb = n.healedMemb := by
  rw [ringProved_eq]
  unfold Node.healedMemb
  cases hh : n.heals with
  | false => simp [Node.proved, hh]
  | true => simp [Node.proved, hh, clearHold_ring_memb]

/-- Causes that do not change are no hold end. -/
theorem recovers_same {m : Node} (hgap : m.gap = s.node.gap) (hseq : m.seq = s.node.seq)
    (hroom : s.roomFor 0 → m.ring = s.node.ring ∧ m.flt = s.node.flt) :
    s.recovers s.node.seq.holds (s.withNode (finish s.settings m)) := by
  refine ⟨hseq, fun hend => ?_, fun _ => ⟨hgap, offers_of_sent fun h0 => ?_⟩⟩
  · unfold Node.holdEndsAt at hend
    cases hany : s.node.seq.holds.any <;> simp [hany] at hend
  · obtain ⟨hr, hf⟩ := hroom h0
    exact State.sent_nil hr hf

/-- A return that proves the ring closed, from a base that differs from the node in what the return has
already changed: the causes become what R38 and R118 say. -/
theorem recovers_ringProved {b : State} {n : Node} (hmemb : b.node.memb = n.healedMemb)
    (hkept : ∃ mm r f, n = { b.node with memb := mm, ring := r, flt := f })
    (hroom : b.roomFor 0 → n.proved.ring = b.node.ring ∧ n.flt = b.node.flt) :
    b.recovers n.healedHolds (b.withNode (finish b.settings (ringProved b.settings n))) := by
  rw [ringProved_eq]
  obtain ⟨mm, r, f, hn⟩ := hkept
  have hring : n.memb.ring = b.node.memb.ring := by rw [hmemb]; rfl
  have hholds : n.seq.holds = b.node.seq.holds := by rw [hn]
  cases hh : n.heals with
  | false =>
    have hsame : n.healedHolds = b.node.seq.holds := by
      rw [← hholds]
      simp [Node.healedHolds, hh]
    rw [if_neg Bool.false_ne_true, hsame]
    refine recovers_same ?_ ?_ hroom
    · rw [hn]; rfl
    · rw [hn]; rfl
  | true =>
    have hput : n.healedHolds = b.node.seq.holds.put .ring false := by
      rw [← hholds]
      simp [Node.healedHolds, hh, Holds.put]
    have hproved : n.proved = { b.node with memb := n.proved.memb, ring := n.proved.ring, flt := n.flt } := by
      rw [hn]
      rfl
    rw [if_pos rfl, hput, hproved]
    exact recovers_clearHold .ring hring hroom

/-! ## OWN_FRAME_RETURN -/

theorem exec_ownFrameReturn (tag : Byte) (hl : s.live) (hs : s.node.seq.stand ≠ .starting) :
    exec (.ownFrameReturn tag) s = .next (s.withNode (finish s.settings (returnOwn s.settings tag s.node))) := by
  have hexec : exec (.ownFrameReturn tag) s =
      s.act (fun c n => if n.seq.stand = .starting then n else returnOwn c tag n) := rfl
  rw [hexec, State.act_live _ _ hl, if_neg hs]

/-- What a return leaves, whatever the link does: the blocks, the break record, the grace timer, the causes and
the reference (the third clause of O26). -/
theorem returnOwn_proves (tag : Byte) (s : State) :
    let t := s.withNode (finish s.settings (returnOwn s.settings tag s.node))
    s.keepsBut [.memb, .seq, .gap, .ring, .flt] t ∧
      t.node.memb.breakRecord = s.node.healedMemb.breakRecord ∧
      t.node.memb.graceTimer = s.node.healedMemb.graceTimer ∧
      t.node.seq = { s.node.seq with holds := s.node.healedHolds } ∧
      (s.node.holdEndsAt s.node.healedHolds = true → s.node.reassembled s.settings.config t.node) ∧
      (s.node.holdEndsAt s.node.healedHolds = false → t.node.gap = s.node.gap) := by
  obtain ⟨k, r, f, hm⟩ := matchReturn_rest s.settings tag s.node
  obtain ⟨mm, sq, g, r', f', hrest⟩ := ringProved_rest s.settings (matchReturn s.settings tag s.node)
  have hmemb := ringProved_memb s.settings (matchReturn s.settings tag s.node)
  unfold returnOwn
  rw [hm] at hrest hmemb ⊢
  obtain ⟨hseq, hend, hno⟩ := recovers_ringProved
    (b := s.withNode { s.node with
      memb := Node.healedMemb { s.node with memb := { s.node.memb with claimResends := k }, ring := r, flt := f }
      ring := { r with lossCount := 0 }
      flt := f })
    (n := { s.node with memb := { s.node.memb with claimResends := k }, ring := r, flt := f }) rfl
    ⟨{ s.node.memb with claimResends := k }, r, f, rfl⟩ fun _ => ⟨rfl, rfl⟩
  refine ⟨keepsBut_finish ?_ (by decide) (by decide), ?_, ?_, hseq, fun h => (hend h).1, fun h => (hno h).1⟩
  · rw [hrest]
    exact Node.keepsBut_of_overlay rfl
  · rw [withNode_node, finish_memb, hmemb]
    rfl
  · rw [withNode_node, finish_memb, hmemb]
    rfl

/-- The transmit side after a return on a busy link (the second clause of O26). -/
theorem returnOwn_matches (tag : Byte) (s : State) (hb : s.node.ring.sending.isSome = true) :
    let t := s.withNode (finish s.settings (returnOwn s.settings tag s.node))
    (∀ older e younger, s.node.ring.outstanding = older ++ e :: younger → e.tag = tag →
        (∀ x ∈ older, x.tag ≠ tag) →
        t.node.ring.outstanding = younger ∧ t.node.ring.unmatchedCount = s.node.ring.unmatchedCount ∧
          (s.settled → s.countersWhole → t.node.flt.counter .ownFrameLost =
            if older = [] then s.node.flt.counter .ownFrameLost
            else satAdd (s.node.flt.counter .ownFrameLost) older.length)) ∧
      ((∀ x ∈ s.node.ring.outstanding, x.tag ≠ tag) →
        t.node.ring.outstanding = s.node.ring.outstanding ∧
          t.node.ring.unmatchedCount = satInc s.node.ring.unmatchedCount) := by
  have hflows := (flows_ringProved s.settings (matchReturn s.settings tag s.node)).trans
    (flows_finish s.settings)
  refine ⟨fun older e younger ho he hno => ?_, fun hmiss => ?_⟩
  · have hdrops := drops_matchReturn s.settings ho he hno hb
    refine ⟨(hflows.ring.kept (.inl hdrops.busy)).trans hdrops.left,
      hflows.ring.unmatched.trans hdrops.unmatched, fun hw hlen => ?_⟩
    have hfold := counter_loseAll s.settings older s.node hw hlen
    have hclean := loseAll_raised s.settings older s.node hw
    rw [← hfold]
    have hspares := (spares_ringProved s.settings (matchReturn s.settings tag s.node)).trans
      (spares_finish ownFrameLost_prompt s.settings _)
    rw [matchReturn_hit _ ho he hno] at hspares
    refine (Eq.trans ?_ (hspares.counter ?_))
    · unfold returnOwn
      rw [matchReturn_hit _ ho he hno]
      rfl
    · intro ev hev
      exact absurd (hclean ▸ hev : ev ∈ []) List.not_mem_nil
  · rw [matchReturn_miss _ hmiss] at hflows
    unfold returnOwn
    rw [matchReturn_miss _ hmiss]
    exact ⟨hflows.ring.kept (.inl hb), hflows.ring.unmatched⟩

theorem ringProved_shut {n : Node} (h : n.memb.ringOpen = false) :
    ringProved c n = { n with ring := { n.ring with lossCount := 0 } } := by
  simp [ringProved, h]

/-- A return that loses no older entry, as a step from the outstanding list it leaves. -/
theorem matchReturn_front {tag : Byte} {n : Node} {out : List OutEntry} {unmatched : Nat}
    (h : (∃ e, n.ring.outstanding = e :: out ∧ e.tag = tag ∧ unmatched = n.ring.unmatchedCount) ∨
      (∀ e ∈ n.ring.outstanding, e.tag ≠ tag) ∧ out = n.ring.outstanding ∧
        unmatched = satInc n.ring.unmatchedCount) :
    ∃ r, matchReturn c tag n = { n with ring := r } ∧ (n.ring.sending.isSome = true →
      r = { n.ring with outstanding := out, unmatchedCount := unmatched }) := by
  obtain ⟨e, ho, he, rfl⟩ | ⟨hmiss, rfl, rfl⟩ := h
  · rw [matchReturn_hit c (older := []) ho he fun x hx => absurd hx List.not_mem_nil]
    refine ⟨_, rfl, fun hb => ?_⟩
    rw [List.foldl_nil, ho, List.drop_one, List.tail_cons]
    exact RingPort.pump_busy _ _ _ hb
  · rw [matchReturn_miss c hmiss]
    exact ⟨_, rfl, fun _ => rfl⟩

/-- A return that matches nothing is counted, with RING_OPEN clear and nothing else to prove. -/
theorem returnOwn_unmatched {tag : Byte} (hopen : s.node.memb.ringOpen = false)
    (hmiss : ∀ e ∈ s.node.ring.outstanding, e.tag ≠ tag) :
    let t := s.withNode (finish s.settings (returnOwn s.settings tag s.node))
    s.keepsBut [.ring, .flt] t ∧ (s.roomFor 0 → t.node.flt = s.node.flt ∧
      t.node.ring = { s.node.ring with
        lossCount := 0, unmatchedCount := satInc s.node.ring.unmatchedCount }) := by
  unfold returnOwn
  rw [matchReturn_miss _ hmiss, ringProved_shut _ (by exact hopen)]
  refine ⟨keepsBut_finish (Node.keepsBut_of_overlay rfl) (by decide) (by decide), fun h0 => ?_⟩
  rw [withNode_node, finish_quiet _ _ (by exact h0.1) (by exact h0.2.1)]
  exact ⟨rfl, rfl⟩

/-- Settles O26: the match and its losses, the ring proved closed, and the recovery that follows. -/
theorem ownFrameReturnMatchesEntry : Obligations.OwnFrameReturnMatchesEntry := by
  intro tag s hl heals holds record grace
  refine ⟨fun hs => ?_, fun hs hb => ?_, fun hs => ?_, fun out unmatched hs hcases => ?_,
    fun hs hopen hmiss => ?_, fun bytes f hj hs hsrc hk htag => ?_⟩
  · exact act_unchanged (g := fun c n => if n.seq.stand = .starting then n else returnOwn c tag n) hl (if_pos hs)
  · have hmemb := ringProved_memb s.settings (matchReturn s.settings tag s.node)
    have hflows := (flows_ringProved s.settings (matchReturn s.settings tag s.node)).trans
      (flows_finish s.settings)
    refine ⟨_, exec_ownFrameReturn tag hl hs, hflows.ring.loss, ?_, ?_, returnOwn_matches tag s hb⟩
    · rw [withNode_node, finish_memb]
      exact congrArg Membership.ringOpen hmemb
    · obtain ⟨k, r, f, hm⟩ := matchReturn_rest s.settings tag s.node
      rw [withNode_node, finish_memb]
      rw [hm] at hmemb
      unfold returnOwn
      rw [hm, hmemb]
      rfl
  · exact ⟨_, exec_ownFrameReturn tag hl hs, returnOwn_proves tag s⟩
  · intro b
    obtain ⟨r, hm, hr⟩ := matchReturn_front s.settings (n := s.node) hcases
    refine ⟨_, exec_ownFrameReturn tag hl hs, ?_⟩
    have hmemb := ringProved_memb s.settings { s.node with ring := r }
    have hrec := recovers_ringProved (b := b) (n := { s.node with ring := r }) rfl
      ⟨s.node.memb, r, s.node.flt, rfl⟩ fun h0 => ⟨by
        change { r with lossCount := 0 } = b.node.ring
        rw [hr h0.1], rfl⟩
    obtain ⟨mm, sq, g, r', f', hrest⟩ := ringProved_rest s.settings { s.node with ring := r }
    unfold returnOwn
    rw [hm]
    refine ⟨⟨rfl, rfl, rfl, ?_⟩, hrec⟩
    have hmm : mm = b.node.memb := (congrArg Node.memb hrest).symm.trans hmemb
    refine Node.keepsBut_transmit (m := ringProved s.settings { s.node with ring := r }) ?_
    rw [hrest, hmm]
    exact Node.keepsBut_of_overlay rfl
  · exact ⟨_, exec_ownFrameReturn tag hl hs, returnOwn_unmatched hopen hmiss⟩
  · rw [← htag]
    exact frameArrival_own hj hs hsrc hk hl

end Sys2Proof.Machine
end

section
/-! SUPPORT. CLAIMs that carry this node's number (R6, R7, R27 to R29). -/

namespace Sys2Proof.Machine

set_option Elab.async false

variable {s : State} {h : ClaimHeader} (c : Settings)

theorem exec_claimOwnSource (hl : s.live) (hin : claimInRange h = true) :
    exec (.claimOwnSource h) s = .next (s.withNode (finish s.settings
      (claimArrives s.settings (claimFrameOf s.settings h) s.node))) := by
  have hexec : exec (.claimOwnSource h) s =
      s.act (fun c n => if claimInRange h then claimArrives c (claimFrameOf c h) n else n) := rfl
  rw [hexec, State.act_live _ _ hl, if_pos hin]

section Arrives
variable {n : Node} (f : Frame)

theorem claimArrives_starting (hs : n.seq.stand = .starting) : claimArrives c f n = forward c f n := if_pos hs

theorem claimArrives_foreign (hs : n.seq.stand ≠ .starting) (ho : claimOut n = false) :
    claimArrives c f n = raise c .claimObjected (forward c { f with objection := true } n) := by
  simp only [claimArrives, if_neg hs, ho, Bool.false_eq_true, if_false]

theorem claimArrives_unmatched (hs : n.seq.stand ≠ .starting) (ho : claimOut n = true)
    (hmiss : ∀ e ∈ n.ring.outstanding, e.tag ≠ f.tag) : claimArrives c f n = returnOwn c f.tag n := by
  simp only [claimArrives, if_neg hs, ho, if_true, matchesClaim, splitAtTag_none hmiss, Bool.false_eq_true, if_false]

theorem claimArrives_oldest {e : OutEntry} {more : List OutEntry} (hs : n.seq.stand ≠ .starting)
    (ho : n.ring.outstanding = e :: more) (hk : e.kind = .claim) (ht : e.tag = f.tag) :
    claimArrives c f n = claimReturn c f.objection (returnOwn c f.tag n) := by
  have hout : claimOut n = true := by simp [claimOut, ho, hk]
  have hhit : matchesClaim f.tag n = true := by simp [matchesClaim, ho, splitAtTag, ht, hk]
  simp only [claimArrives, if_neg hs, hout, hhit, if_true]

/-- The return of the oldest entry on a busy link, with RING_OPEN clear. -/
theorem returnOwn_oldest {tag : Byte} {e : OutEntry} {more : List OutEntry} (ho : n.ring.outstanding = e :: more)
    (ht : e.tag = tag) (hopen : n.memb.ringOpen = false) (hb : n.ring.sending.isSome = true) :
    returnOwn c tag n = { n with ring := { n.ring with outstanding := more, lossCount := 0 } } := by
  obtain ⟨r, hm, hr⟩ := matchReturn_front c (n := n) (.inl ⟨e, ho, ht, rfl⟩)
  unfold returnOwn
  rw [hm, hr hb, ringProved_shut _ (by exact hopen)]

end Arrives

/-- The node that a clean return takes to SEEKING, before its BEACON is offered (R27, R32). -/
def Node.sought (c : NodeConfig) (n : Node) : Node := { n with
  memb := { n.memb with
    ring := .seeking, claimOk := true
    seekTimer := some (25 * c.beaconInterval)
    beaconTimer := some c.beaconInterval
    upstream := { n.memb.upstream with heardInSeek := false }
    downstream := { n.memb.downstream with heardInSeek := false } }
  ring := { n.ring with lossCount := 0 } }

theorem enterSeeking_busy {n : Node} (hb : n.ring.sending.isSome = true) :
    enterSeeking c n = offerNow c (n.beacon c.config) (n.sought c.config) := by
  unfold enterSeeking sendBeacon
  dsimp only
  rw [pump_busy c _ (by exact hb)]
  rfl

/-- The node that an objection takes to CONFLICT, before its fault (R23, R28). -/
def Node.conflicted (n : Node) : Node := { n with
  memb := { n.memb with ring := .conflict, beaconTimer := none, seekTimer := none }
  ring := { n.ring with
    outstanding := [], insertQueue := [], lossCount := 0, passRun := 0
    flushedCount := satAdd n.ring.flushedCount n.ring.insertQueue.length } }

theorem enterConflict_busy {n : Node} (hb : n.ring.sending.isSome = true) :
    enterConflict c n = raise c .stationConflict n.conflicted :=
  congrArg (raise c .stationConflict) (pump_busy c n.conflicted hb)

theorem cls_stationConflict_idle {st : StandState} (h : st.strip = false) :
    FaultCode.stationConflict.cls st = .correctable := by simp [FaultCode.cls, h]

theorem cls_stationConflict_strip {st : StandState} (h : st.strip = true) :
    FaultCode.stationConflict.cls st = .fatal := by simp [FaultCode.cls, h]

/-- A CLAIM forwarded with the objection marker, and CLAIM_OBJECTED (R7). -/
theorem objects_room {n : Node} {f : Frame} (hh : f.hop + 1 < 32) (hp : n.ring.passBuffer.length < 6)
    (hb : n.ring.sending.isSome = true) (hw : n.flt.raised = []) (hq : n.ring.insertQueue.length < 16) :
    raise c .claimObjected (forward c f n) = { n with
      flt := n.flt.after c (eventOf .claimObjected n)
      ring := { n.ring with
        passBuffer := n.ring.passBuffer ++ [{ f with hop := f.hop + 1 }]
        insertQueue := queueAfter c n.memb.ring (eventOf .claimObjected n) n.flt n.ring.insertQueue } } := by
  rw [forward_room c n hh hp hb, raise_room _ _ _ rfl (by exact hb) (by exact hw) (by exact hq)]
  rfl

/-- Settles O27: by the stand state, by whether a CLAIM is out and whether the tag matches it, and by the
objection marker. -/
theorem ownNumberClaimsAreSorted : Obligations.OwnNumberClaimsAreSorted := by
  refine ⟨?_, ?_, ?_, ?_⟩
  · intro h e more s hl hin hs hr ho hk ht hopen hb
    have harr : claimArrives s.settings (claimFrameOf s.settings h) s.node = claimReturn s.settings h.objection
        { s.node with ring := { s.node.ring with outstanding := more, lossCount := 0 } } := by
      rw [claimArrives_oldest s.settings (claimFrameOf s.settings h) hs ho hk ht,
        returnOwn_oldest (tag := (claimFrameOf s.settings h).tag) _ ho ht hopen hb]
      rfl
    refine ⟨_, exec_claimOwnSource hl hin, rfl, rfl, rfl, fun hclean => ?_, fun hobj => ?_⟩
    · rw [harr, hclean, claimReturn, if_pos (by exact hr), if_neg Bool.false_ne_true,
        enterSeeking_busy _ (by exact hb)]
      have hflows := (flows_offerNow s.settings (n := Node.sought s.settings.config { s.node with ring :=
        { s.node.ring with outstanding := more, lossCount := 0 } }) (s.node.beacon s.settings.config)).trans
          (flows_finish s.settings)
      refine ⟨rfl, hflows.ring.kept (.inl hb), hflows.ring.loss,
        keepsBut_finish (Node.keepsBut_of_overlay rfl) (by decide) (by decide), fun h1 => ?_⟩
      obtain ⟨hbusy, hwaits, hqueue⟩ := h1
      rw [offerNow_room _ _ _ (by exact hb) (by exact hwaits) (by exact hqueue) rfl rfl,
        finish_quiet _ _ (by exact hb) (by exact hwaits)]
      exact ⟨rfl, rfl⟩
    · intro b
      rw [harr, hobj, claimReturn, if_pos (by exact hr), if_pos rfl, enterConflict_busy _ (by exact hb)]
      have hflows := (flows_raise s.settings (n := b.node) .stationConflict).trans (flows_finish s.settings)
      obtain ⟨g, hg⟩ := hflows.memb
      refine ⟨congrArg Membership.ring hg, congrArg Membership.beaconTimer hg, congrArg Membership.seekTimer hg,
        (congrArg Membership.lockOk hg).trans rfl, (congrArg Membership.claimOk hg).trans rfl, hflows.ring.kept (.inr rfl),
        hflows.ring.mute (.inr rfl), hflows.ring.loss, fun hs => ⟨?_, ?_⟩, fun hs hu => ?_⟩
      · exact keepsBut_raise (s := b) (Node.keepsBut_refl _) (by decide) (by decide)
          (cls_stationConflict_idle (by exact hs))
      · exact reports_raise (s := b) (m := b.node) (cls_stationConflict_idle (by exact hs)) rfl rfl rfl rfl rfl
      · exact tripsByFault_raise (s := b) (m := b.node) hu (.inl (cls_stationConflict_strip (by exact hs))) rfl rfl
  · intro h s hl hin hh hp
    refine ⟨fun hs ho => ⟨_, exec_claimOwnSource hl hin, ?_, fun h1 => ?_⟩, fun hs => ?_⟩
    · rw [claimArrives_foreign _ _ hs ho]
      exact keepsBut_raise (forward_passes_keepsBut _ _ hh hp) (by decide) (by decide) rfl
    · obtain ⟨hbusy, hwaits, hqueue⟩ := h1
      rw [claimArrives_foreign _ _ hs ho, objects_room _ hh hp hbusy hwaits hqueue,
        finish_quiet _ _ (by exact hbusy) (by rfl)]
      exact ⟨rfl, rfl⟩
    · have hexec : exec (.claimOwnSource h) s =
          s.act (fun c n => if claimInRange h then claimArrives c (claimFrameOf c h) n else n) := rfl
      rw [hexec]
      refine act_passes (f := claimFrameOf s.settings h) hl ?_ hh hp
      rw [if_pos hin, claimArrives_starting _ _ hs]
  · intro h s hl hin hs ho hmiss hopen
    refine ⟨_, exec_claimOwnSource hl hin, ?_⟩
    rw [claimArrives_unmatched _ _ hs ho hmiss]
    exact returnOwn_unmatched (tag := (claimFrameOf s.settings h).tag) hopen hmiss
  · intro bytes f standIndex s hl hj hsrc hk hpay
    obtain ⟨hlow, hhigh, hhop⟩ := judgeArrival_ranges hj
    have hbyte : (byte f.hop).toNat = f.hop := toNat_byte (by omega)
    have hframe : claimFrameOf s.settings { dest := f.dest, tag := f.tag, hop := byte f.hop
                                            objection := f.objection, standIndex := standIndex } = f := by
      simp only [claimFrameOf, hbyte, ← hsrc, ← hk, ← hpay]
    rw [exec_claimOwnSource hl (by simp [claimInRange, hbyte, hlow, hhigh, hhop]), hframe, exec_frameArrival,
      State.act_live _ _ hl]
    unfold frameArrives
    rw [hj]
    simp only [intactFrame, if_pos hsrc, if_pos hk]
    split
    next hst => rw [claimArrives_starting _ _ hst]
    next => rfl

end Sys2Proof.Machine
end

section
/-! SUPPORT. The return timeout (R21, R22, R37): one entry lost, and the further ones that have run out too. -/

namespace Sys2Proof.Machine

set_option Elab.async false

variable {s : State} (c : Settings) {n m : Node}

/-! ## The timeout elapsed -/

theorem returnElapsed_congr (hclock : m.clock = n.clock) (hring : m.memb.ring = n.memb.ring) :
    returnElapsed c m = returnElapsed c n := by
  funext e
  simp only [returnElapsed, returnLimit, hclock, hring]

theorem returnElapsed_iff {e : OutEntry} : returnElapsed c n e = true ↔
    ∃ sent limit, e.sentAt = some sent ∧ returnLimit c n = some limit ∧ sent + limit ≤ n.clock := by
  unfold returnElapsed
  split
  next hs hl => simp [hs, hl]
  next hno =>
    refine ⟨fun h => absurd h Bool.false_ne_true, fun ⟨sent, limit, hs, hl, _⟩ => absurd hl (hno sent limit hs)⟩

theorem returnExpiry_idle (h : ∀ e more, n.ring.outstanding = e :: more → returnElapsed c n e = false) :
    returnExpiry c n = n := by
  unfold returnExpiry
  split
  next => rfl
  next e more ho => exact if_neg (by simp [h e more ho])

theorem returnExpiry_elapsed {e : OutEntry} {more : List OutEntry} (ho : n.ring.outstanding = e :: more)
    (he : returnElapsed c n e = true) :
    returnExpiry c n = timeOutMore c more.length (timeOutOldest c e n) := by
  simp only [returnExpiry, ho, he, if_true]

/-! ## One entry lost -/

/-- A loss now would be the third in a row, in JOINED with RING_OPEN clear (R22). -/
def Node.third (n : Node) : Bool := satInc n.ring.lossCount = 3 && n.memb.ring = .joined && !n.memb.ringOpen

/-- The node once the oldest entry has been removed and OWN_FRAME_LOST raised. -/
def Node.lostOne (c : Settings) (n : Node) : Node := raise c .ownFrameLost (dropOldest c n)

/-- The node with a loss counted. -/
def Node.counted (n : Node) : Node := { n with ring := { n.ring with lossCount := satInc n.ring.lossCount } }

/-- The node with the ring known open. -/
def Node.opened (n : Node) : Node := { n with memb := { n.memb with ringOpen := true, breakRecord := .ringOpen } }

theorem countLoss_eq (n : Node) :
    countLoss c n = if n.third then raise c .ringBreak n.counted.opened else n.counted := by
  unfold countLoss Node.third
  rfl

theorem timeOutOldest_eq (e : OutEntry) (n : Node) : timeOutOldest c e n =
    if e.kind = .claim then claimLoss c (countLoss c (n.lostOne c)) else countLoss c (n.lostOne c) := rfl

theorem lostOne_rest (n : Node) : ∃ r f, n.lostOne c = { n with ring := r, flt := f } :=
  raise_ownFrameLost_rest c (dropOldest c n)

/-- A loss does not change whether the next one is the third. -/
theorem lostOne_third (n : Node) : (n.lostOne c).third = n.third := by
  have hflows := Node.Flows.trans (m := dropOldest c n)
    (n := { n with ring := { n.ring with outstanding := n.ring.outstanding.drop 1 } })
    (flows_pumpNode c) (flows_raise c .ownFrameLost)
  obtain ⟨r, f, hm⟩ := lostOne_rest c n
  have hloss : (n.lostOne c).ring.lossCount = n.ring.lossCount := hflows.ring.loss
  unfold Node.third
  rw [hloss, hm]

theorem claimLoss_idle (h : n.memb.ring ≠ .claiming) : claimLoss c n = n := if_neg h

/-- From a node to a node on a busy link: the oldest entry is lost by the return timeout. -/
structure Node.TimesOut (n m : Node) : Prop where
  state : m.memb.ring = n.memb.ring
  clock : m.clock = n.clock
  busy : m.ring.sending.isSome = true
  left : m.ring.outstanding = n.ring.outstanding.drop 1
  loss : m.ring.lossCount = satInc n.ring.lossCount
  ringOpen : m.memb.ringOpen = (n.third || n.memb.ringOpen)
  record : m.memb.breakRecord = if n.third then .ringOpen else n.memb.breakRecord

theorem Node.TimesOut.flows {k : Node} (h : n.TimesOut m) (g : m.Flows k) (hclock : k.clock = m.clock) :
    n.TimesOut k := by
  obtain ⟨gt, hg⟩ := g.memb
  exact {
    state := g.state.trans h.state
    clock := hclock.trans h.clock
    busy := by rw [g.ring.busy h.busy]; exact h.busy
    left := (g.ring.kept (.inl h.busy)).trans h.left
    loss := g.ring.loss.trans h.loss
    ringOpen := by rw [hg]; exact h.ringOpen
    record := by rw [hg]; exact h.record }

theorem timesOut_countLoss (hb : n.ring.sending.isSome = true) : n.TimesOut (countLoss c (n.lostOne c)) := by
  have hdrop := (drops_dropOldest c hb).flows (flows_raise c .ownFrameLost)
  have hflows := Node.Flows.trans (m := dropOldest c n)
    (n := { n with ring := { n.ring with outstanding := n.ring.outstanding.drop 1 } })
    (flows_pumpNode c) (flows_raise c .ownFrameLost)
  have hloss : (n.lostOne c).ring.lossCount = n.ring.lossCount := hflows.ring.loss
  obtain ⟨r, f, hm⟩ := lostOne_rest c n
  rw [countLoss_eq, lostOne_third]
  cases ht : n.third with
  | false =>
    rw [if_neg Bool.false_ne_true]
    exact {
      state := hdrop.state
      clock := by rw [hm]; rfl
      busy := hdrop.busy
      left := hdrop.left
      loss := congrArg satInc hloss
      ringOpen := by rw [hm, ht]; rfl
      record := by rw [hm, ht]; rfl }
  | true =>
    rw [if_pos rfl]
    refine Node.TimesOut.flows (m := (n.lostOne c).counted.opened) ?_ (flows_raise c .ringBreak)
      (raise_kept c _ .ringBreak).2.2.1
    exact {
      state := hdrop.state
      clock := by rw [hm]; rfl
      busy := hdrop.busy
      left := hdrop.left
      loss := congrArg satInc hloss
      ringOpen := by rw [ht]; rfl
      record := by rw [ht]; rfl }

theorem timesOut_timeOutOldest (e : OutEntry) (hb : n.ring.sending.isSome = true) :
    n.TimesOut (timeOutOldest c e n) := by
  have hcount := timesOut_countLoss c hb
  rw [timeOutOldest_eq]
  split
  · unfold claimLoss
    split
    · refine Node.TimesOut.flows ?_ (flows_offerNow c (claimFrame c)) rfl
      exact ⟨hcount.state, hcount.clock, hcount.busy, hcount.left, hcount.loss, hcount.ringOpen, hcount.record⟩
    · exact hcount
  · exact hcount

/-! ## The further entries -/

/-- The oldest entry and those after it that have run out: what is left, the losses, and the ring state. -/
theorem timeOutMore_drops (fuel : Nat) : ∀ n : Node, n.ring.sending.isSome = true →
    n.ring.outstanding.length ≤ fuel → n.ring.lossCount ≤ 65535 →
    (timeOutMore c fuel n).ring.sending.isSome = true ∧
      (timeOutMore c fuel n).ring.outstanding = n.ring.outstanding.dropWhile (returnElapsed c n) ∧
      (timeOutMore c fuel n).ring.lossCount =
        satAdd n.ring.lossCount (n.ring.outstanding.takeWhile (returnElapsed c n)).length := by
  induction fuel with
  | zero =>
    intro n hb hlen hloss
    have hnil := List.length_eq_zero_iff.mp (Nat.le_zero.mp hlen)
    rw [hnil]
    exact ⟨hb, hnil, (Nat.min_eq_left hloss).symm⟩
  | succ fuel ih =>
    intro n hb hlen hloss
    unfold timeOutMore
    split
    next hnil =>
      rw [hnil]
      exact ⟨hb, rfl, (Nat.min_eq_left hloss).symm⟩
    next e more ho =>
      rw [ho] at hlen
      split
      next he =>
        have hstep := timesOut_timeOutOldest c e hb
        have hmore : (timeOutOldest c e n).ring.outstanding = more := by
          rw [hstep.left, ho, List.drop_one, List.tail_cons]
        obtain ⟨hb', hleft, hcount⟩ := ih (timeOutOldest c e n) hstep.busy
          (by rw [hmore]; exact Nat.le_of_succ_le_succ hlen)
          (by rw [hstep.loss]; exact Nat.min_le_right _ _)
        rw [returnElapsed_congr c hstep.clock hstep.state, hmore] at hleft hcount
        rw [ho, List.dropWhile_cons_of_pos he, List.takeWhile_cons_of_pos he]
        refine ⟨hb', hleft, hcount.trans ?_⟩
        rw [hstep.loss, List.length_cons]
        unfold satInc satAdd
        omega
      next he =>
        rw [ho, List.dropWhile_cons_of_neg he, List.takeWhile_cons_of_neg he]
        exact ⟨hb, rfl, (Nat.min_eq_left hloss).symm⟩

/-- In JOINED, the ring is known open from the third loss on. -/
def Node.opensAtThird (n : Node) : Prop :=
  n.memb.ring = .joined ∧ (n.memb.ringOpen = false ∧ n.ring.lossCount < 3 ∨
    n.memb.ringOpen = true ∧ n.memb.breakRecord = .ringOpen)

theorem Node.TimesOut.opensAtThird (h : n.TimesOut m) (hn : n.opensAtThird) : m.opensAtThird := by
  obtain ⟨hj, hcase⟩ := hn
  refine ⟨h.state.trans hj, ?_⟩
  rw [h.loss, h.ringOpen, h.record]
  obtain ⟨hopen, hloss⟩ | ⟨hopen, hrec⟩ := hcase
  · by_cases ht : satInc n.ring.lossCount = 3
    · right
      simp [Node.third, ht, hj, hopen]
    · left
      refine ⟨by simp [Node.third, ht, hopen], ?_⟩
      unfold satInc satAdd at ht ⊢
      omega
  · right
    simp [Node.third, hopen, hrec]

theorem timeOutMore_opensAtThird (fuel : Nat) : ∀ n : Node, n.ring.sending.isSome = true → n.opensAtThird →
    (timeOutMore c fuel n).opensAtThird := by
  induction fuel with
  | zero => exact fun n _ h => h
  | succ fuel ih =>
    intro n hb h
    unfold timeOutMore
    split
    · exact h
    next e _ _ =>
      split
      · have hstep := timesOut_timeOutOldest c e hb
        exact ih _ hstep.busy (hstep.opensAtThird h)
      · exact h

/-! ## RETURN_TIMEOUT -/

theorem le_length_queueAfter (r : RingState) (ev : FaultEvent) (f : FaultUnit) (q : List OwnFrame) :
    q.length ≤ (queueAfter c r ev f q).length := by
  unfold queueAfter
  dsimp only
  split
  · split
    · simp
    · simp
  · exact le_refl _

/-- The machine once the oldest entry has been lost, its loss counted and reported. -/
def State.afterLoss (more : List OutEntry) (s : State) : State :=
  s.withNode { s.node with
    ring := { s.node.ring with
      outstanding := more, lossCount := satInc s.node.ring.lossCount
      insertQueue := queueAfter s.settings s.node.memb.ring (eventOf .ownFrameLost s.node) s.node.flt
        s.node.ring.insertQueue }
    flt := s.node.flt.after s.settings (eventOf .ownFrameLost s.node) }

theorem lostOne_room {e : OutEntry} {more : List OutEntry} (ho : s.node.ring.outstanding = e :: more)
    (hroom : s.roomFor 1) : (s.node.lostOne s.settings).counted = (s.afterLoss more).node := by
  obtain ⟨hb, hw, hq⟩ := hroom
  have hdrop : dropOldest s.settings s.node = { s.node with ring := { s.node.ring with outstanding := more } } := by
    unfold dropOldest
    rw [ho, List.drop_one, List.tail_cons, pump_busy _ _ (by exact hb)]
  unfold Node.lostOne Node.counted
  rw [hdrop, raise_room _ _ _ rfl (by exact hb) (by exact hw) (by exact hq)]
  rfl

/-- A loss in CLAIMING that no report joins the queue for: the CLAIM is offered anew. -/
theorem queueAfter_claiming (ev : FaultEvent) (f : FaultUnit) (q : List OwnFrame) :
    queueAfter c .claiming ev f q = q := by
  have hno : RingState.claiming.admits .fault = false := rfl
  unfold queueAfter
  rw [hno, Bool.and_false]
  exact if_neg Bool.false_ne_true

/-- Unless a CLAIM is lost in CLAIMING, a loss is counted and no more. -/
theorem timeOutOldest_counts {e : OutEntry} (hb : n.ring.sending.isSome = true)
    (h : e.kind ≠ .claim ∨ n.memb.ring ≠ .claiming) : timeOutOldest c e n = countLoss c (n.lostOne c) := by
  rw [timeOutOldest_eq]
  split
  next hk => exact claimLoss_idle c (by rw [(timesOut_countLoss c hb).state]; exact h.resolve_left (· hk))
  next => rfl

theorem timeOutOldest_breaks {e : OutEntry} {more : List OutEntry} (ho : s.node.ring.outstanding = e :: more)
    (hb : s.node.ring.sending.isSome = true) (h : e.kind ≠ .claim ∨ s.node.memb.ring ≠ .claiming)
    (ht : s.node.third = true) (hw : s.settled) :
    ((s.afterLoss more).withNode (s.afterLoss more).node.opened).breaksRing
      (s.withNode (finish s.settings (timeOutOldest s.settings e s.node))) := by
  obtain ⟨r, f, hm⟩ := lostOne_rest s.settings s.node
  rw [timeOutOldest_counts _ hb h, countLoss_eq, lostOne_third, ht, if_pos rfl]
  have hopened : (s.node.lostOne s.settings).counted.opened = { (s.afterLoss more).node.opened with
      ring := (s.node.lostOne s.settings).counted.ring, flt := (s.node.lostOne s.settings).counted.flt } := by
    rw [hm]
    rfl
  rw [hopened]
  refine breaksRing_raise ((s.afterLoss more).withNode (s.afterLoss more).node.opened) fun h1 => ?_
  have hroom : s.roomFor 1 := by
    have hlen := le_length_queueAfter s.settings s.node.memb.ring (eventOf .ownFrameLost s.node) s.node.flt
      s.node.ring.insertQueue
    exact ⟨hb, hw, le_trans (Nat.add_le_add_right hlen 1) h1.2.2⟩
  rw [lostOne_room ho hroom]
  exact ⟨rfl, rfl⟩

theorem timeOutOldest_reports {e : OutEntry} {more : List OutEntry} (ho : s.node.ring.outstanding = e :: more)
    (hb : s.node.ring.sending.isSome = true) (h : e.kind ≠ .claim ∨ s.node.memb.ring ≠ .claiming)
    (ht : s.node.third = false) :
    let t := s.withNode (finish s.settings (timeOutOldest s.settings e s.node))
    s.keepsBut [.ring, .flt] t ∧ (s.roomFor 1 → t.node = (s.afterLoss more).node) := by
  obtain ⟨r, f, hm⟩ := lostOne_rest s.settings s.node
  rw [timeOutOldest_counts _ hb h, countLoss_eq, lostOne_third, ht, if_neg Bool.false_ne_true]
  refine ⟨keepsBut_finish ?_ (by decide) (by decide), fun h1 => ?_⟩
  · rw [hm]
    exact Node.keepsBut_of_overlay rfl
  · rw [withNode_node, lostOne_room ho h1]
    exact finish_quiet _ _ (by exact hb) (by rfl)

theorem timeOutOldest_resends {e : OutEntry} {more : List OutEntry} (ho : s.node.ring.outstanding = e :: more)
    (hk : e.kind = .claim) (hr : s.node.memb.ring = .claiming) :
    let t := s.withNode (finish s.settings (timeOutOldest s.settings e s.node))
    t.node.memb = { s.node.memb with claimResends := satInc s.node.memb.claimResends } ∧
      s.keepsBut [.memb, .ring, .flt] t ∧
      (s.roomFor 1 → t.node.ring.insertQueue = s.node.ring.insertQueue ++ [claimFrame s.settings]) := by
  obtain ⟨r, f, hm⟩ := lostOne_rest s.settings s.node
  have ht : s.node.third = false := by simp [Node.third, hr]
  have hclaim : timeOutOldest s.settings e s.node = offerNow s.settings (claimFrame s.settings)
      { (s.node.lostOne s.settings).counted with
        memb := { s.node.memb with claimResends := satInc s.node.memb.claimResends } } := by
    rw [timeOutOldest_eq, if_pos hk, countLoss_eq, lostOne_third, ht, if_neg Bool.false_ne_true, hm, claimLoss,
      if_pos (by exact hr)]
    rfl
  rw [hclaim]
  refine ⟨rfl, keepsBut_finish ?_ (by decide) (by decide), fun h1 => ?_⟩
  · rw [hm]
    exact Node.keepsBut_of_overlay rfl
  · obtain ⟨hb, hw, hq⟩ := h1
    have hqueue := queueAfter_claiming s.settings (eventOf .ownFrameLost s.node) s.node.flt
      s.node.ring.insertQueue
    rw [withNode_node, lostOne_room ho ⟨hb, hw, hq⟩]
    unfold State.afterLoss
    rw [hr, hqueue, offerNow_room _ _ _ (by exact hb) (by rfl) (by exact hq) (by rw [hr]; rfl) rfl,
      finish_quiet _ _ (by exact hb) (by rfl)]
    rfl

/-- Settles O29: the oldest entry with those that have run out behind it, or nothing. -/
theorem returnTimeoutLosesOldestEntry : Obligations.ReturnTimeoutLosesOldestEntry := by
  intro s hl
  have hexec : exec .returnTimeout s = s.act (fun c n => returnExpiry c n) := rfl
  refine ⟨fun e more ho hb sent limit hs hlim hout => ?_, fun hno => ?_⟩
  · have he : returnElapsed s.settings s.node e = true := (returnElapsed_iff _).mpr ⟨sent, limit, hs, hlim, hout⟩
    have hstep := timesOut_timeOutOldest s.settings e hb
    have hmore : (timeOutOldest s.settings e s.node).ring.outstanding = more := by
      rw [hstep.left, ho, List.drop_one, List.tail_cons]
    obtain ⟨hb', hleft, hcount⟩ := timeOutMore_drops s.settings more.length _ hstep.busy (by rw [hmore])
      (by rw [hstep.loss]; exact Nat.min_le_right _ _)
    rw [returnElapsed_congr _ hstep.clock hstep.state, hmore] at hleft hcount
    have hflows := flows_finish s.settings (n := timeOutMore s.settings more.length (timeOutOldest s.settings e s.node))
    rw [hexec, State.act_live _ _ hl, returnExpiry_elapsed _ ho he]
    refine ⟨_, rfl, (hflows.ring.kept (.inl hb')).trans hleft, (hflows.ring.loss.trans hcount).trans ?_,
      fun hj hopen hloss h3 => ?_, fun hhead => ?_⟩
    · rw [hstep.loss]
      unfold satInc satAdd
      omega
    · have hends := timeOutMore_opensAtThird s.settings more.length _ hstep.busy
        (hstep.opensAtThird ⟨hj, .inl ⟨hopen, hloss⟩⟩)
      rw [withNode_node, hflows.ring.loss] at h3
      exact hends.2.resolve_left fun hclosed => absurd h3 (Nat.not_le.mpr hclosed.2)
    · have hlast : timeOutMore s.settings more.length (timeOutOldest s.settings e s.node) =
          timeOutOldest s.settings e s.node := by
        cases more with
        | nil => rfl
        | cons x more =>
          rw [List.length_cons, timeOutMore, hmore]
          refine if_neg ?_
          rw [returnElapsed_congr _ hstep.clock hstep.state, hhead x rfl]
          exact Bool.false_ne_true
      rw [hlast]
      intro third
      have hthird : third ↔ s.node.third = true := by simp [third, Node.third, and_assoc]
      refine ⟨fun h3 => ?_, fun h3 hk => ?_, fun hk hr => ?_⟩
      · have ht := hthird.mp h3
        have hring : s.node.memb.ring ≠ .claiming := by rw [h3.2.1]; exact RingState.noConfusion
        refine ⟨?_, ?_, fun hw => ?_⟩
        · rw [withNode_node, finish_memb, hstep.ringOpen, ht]; rfl
        · rw [withNode_node, finish_memb, hstep.record, ht]; rfl
        · have hbreaks := timeOutOldest_breaks ho hb (.inr hring) ht hw
          have h3loss : satInc s.node.ring.lossCount = 3 := h3.1
          unfold State.afterLoss at hbreaks
          rw [h3loss] at hbreaks
          exact hbreaks
      · obtain ⟨hkeeps, hroom⟩ := timeOutOldest_reports ho hb hk (Bool.eq_false_iff.mpr (mt hthird.mpr h3))
        exact ⟨hkeeps, fun h1 => by rw [hroom h1]; exact ⟨rfl, rfl⟩⟩
      · exact timeOutOldest_resends ho hk hr
  · refine act_unchanged (g := fun c n => returnExpiry c n) hl (returnExpiry_idle _ fun e more ho => ?_)
    refine Bool.eq_false_iff.mpr fun he => ?_
    obtain ⟨sent, limit, hs, hlim, hout⟩ := (returnElapsed_iff _).mp he
    obtain hnil | hnone | ⟨e', more', ho', hwhy⟩ := hno
    · simp [hnil] at ho
    · simp [hnone] at hlim
    · obtain rfl : e' = e := (List.cons.inj (ho'.symm.trans ho)).1
      obtain hunsent | ⟨sent', limit', hs', hlim', hnot⟩ := hwhy
      · simp [hunsent] at hs
      · rw [hs] at hs'
        rw [hlim] at hlim'
        obtain rfl := Option.some.inj hs'
        obtain rfl := Option.some.inj hlim'
        omega

end Sys2Proof.Machine
end

section
/-! SUPPORT. Reads that arrive (R10, R11, R47, R48): the forwarding, and the REPLY with the value of the node that has
forwarded. -/

namespace Sys2Proof.Machine

set_option Elab.async false

variable {s : State} {bytes : List Byte} {f : Frame} {index a1 a2 : Byte}

/-- The node that has taken a frame into a pass-through buffer with room, on a busy link. -/
def Node.passed (f : Frame) (n : Node) : Node := { n with ring := { n.ring with
  passBuffer := n.ring.passBuffer ++ [{ f with hop := f.hop + 1 }] } }

theorem exec_readFrame (hl : s.live) (hj : judgeArrival bytes = .intact f) (hk : f.kind = .rdreq)
    (hp : f.payload = [index, a1, a2]) (hh : s.hands f.header) (hhop : f.hop + 1 < 32)
    (hroom : s.node.ring.passBuffer.length < 6) :
    exec (.frameArrival bytes) s = .next (s.withNode (finish s.settings
      (readRequest s.settings f.header index a1 a2 (forward s.settings f s.node)))) := by
  obtain ⟨hforeign, hstand⟩ := foreign_of_hands hh
  have hlive : (s.withNode (forward s.settings f s.node)).live := by
    simpa [State.live, forward_startup] using hl
  have hhanded : handed s.settings f.source f.dest (forward s.settings f s.node) = true := by
    rw [forward_passes _ hhop hroom]; exact hh
  have hread : deliver s.settings f (forward s.settings f s.node) =
      readRequest s.settings f.header index a1 a2 (forward s.settings f s.node) := by
    simp only [deliver, hk, hp, rdreqPayload, readArrives, Frame.header, hhanded, if_true]
  rw [frameArrival_foreign hj hstand hforeign hhop hl, act_live _ hlive]
  exact congrArg (fun n => Host.Outcome.next (s.withNode (finish s.settings n))) hread

/-- A read of an object other than COEF_ENTRY is one REPLY. -/
theorem readRequest_replies (c : Settings) (h : Header) (n : Node) (hi : index ≠ 13) :
    ∃ st v, readRequest c h index a1 a2 n = reply c h.source h.tag index.toNat st v n := by
  unfold readRequest
  split
  next st _ => exact ⟨st, [], rfl⟩
  next =>
    rw [if_neg hi]
    split
    next v _ => exact ⟨.done, v, rfl⟩
    next => exact ⟨.range, [], rfl⟩

/-- The frame of a REPLY, in its fields (R47, R196). -/
theorem replyFrame_eq (requester tag index : Byte) (st : Status) (v : List Byte) :
    replyFrame requester tag index.toNat st v =
      { kind := .reply, dest := requester, fatal := false
        payload := tag :: index :: st.code :: byte v.length :: v } := by
  rw [replyFrame, byte_toNat]

/-- What the arrival of a read makes of the machine, where the read is answered with a status and a value. -/
theorem readFrame_answered (hl : s.live) (hj : judgeArrival bytes = .intact f) (hk : f.kind = .rdreq)
    (hp : f.payload = [index, a1, a2]) (hh : s.hands f.header) (hhop : f.hop + 1 < 32)
    (hroom : s.node.ring.passBuffer.length < 6) (hi : index ≠ 13) {st : Status} {v : List Byte}
    (hr : readRequest s.settings f.header index a1 a2 (s.node.passed f) =
      reply s.settings f.source f.tag index.toNat st v (s.node.passed f)) :
    ∃ t, exec (.frameArrival bytes) s = .next t ∧ s.keepsBut [.ring, .flt] t ∧
      (s.roomFor 1 → t.node.flt = s.node.flt ∧
        t.node.ring = { s.node.ring with
          passBuffer := s.node.ring.passBuffer ++ [{ f with hop := f.hop + 1 }]
          insertQueue := s.node.ring.insertQueue ++
            [{ kind := .reply, dest := f.source, fatal := false
               payload := f.tag :: index :: st.code :: byte v.length :: v }] }) := by
  refine ⟨_, exec_readFrame hl hj hk hp hh hhop hroom, keepsBut_finish ?_ (by decide) (by decide), fun h1 => ?_⟩
  · obtain ⟨st', v', hany⟩ := readRequest_replies (a1 := a1) (a2 := a2) s.settings f.header
      (forward s.settings f s.node) hi
    rw [hany, forward_passes _ hhop hroom]
    exact Node.keepsBut_of_overlay rfl
  · obtain ⟨hbusy, hwaits, hqueue⟩ := h1
    rw [forward_room _ _ hhop hroom hbusy]
    have hpassed : { s.node with ring := { s.node.ring with
        passBuffer := s.node.ring.passBuffer ++ [{ f with hop := f.hop + 1 }] } } = s.node.passed f := rfl
    rw [hpassed, hr, reply, replyFrame_eq, offerNow_room _ _ _ (by exact hbusy) (by exact hwaits)
      (by exact hqueue) (by exact admits_of_hands hh _) rfl, withNode_node,
      finish_quiet _ _ (by exact hbusy) (by exact hwaits)]
    exact ⟨rfl, rfl⟩

section Cases
variable (c : Settings) (h : Header) (n : Node)

theorem readRequest_refused {st : Status} (hr : readRefused c index.toNat = some st) :
    readRequest c h index a1 a2 n = reply c h.source h.tag index.toNat st [] n := by
  unfold readRequest
  rw [hr]
  rfl

theorem readRequest_done (hr : readRefused c index.toNat = none) (hi : index ≠ 13) {v : List Byte}
    (hv : readValue c n index.toNat a2 = some v) :
    readRequest c h index a1 a2 n = reply c h.source h.tag index.toNat .done v n := by
  unfold readRequest
  rw [hr]
  dsimp only
  rw [if_neg hi, hv]

theorem readRequest_range (hr : readRefused c index.toNat = none) (hi : index ≠ 13)
    (hv : readValue c n index.toNat a2 = none) :
    readRequest c h index a1 a2 n = reply c h.source h.tag index.toNat .range [] n := by
  unfold readRequest
  rw [hr]
  dsimp only
  rw [if_neg hi, hv]
  rfl

theorem settledClass_resetCause (ho : c.config.closures.getD 23 .openTo = .openTo) :
    settledClass c 23 = some .read := by
  unfold settledClass
  rw [ho]
  rfl

end Cases

/-! ## NODE_RESET (R194) -/

section Reset
variable (c : Settings) (n : Node)

/-- The REPLYs to requests that a soft reset aborts (R54). -/
def abortedFrames (es : List ReqEntry) : List OwnFrame :=
  es.map fun e => replyFrame e.requester e.tag e.index .aborted []

theorem offerAll_rest (es : List ReqEntry) : ∀ n : Node, ∃ r f,
    es.foldl (fun m e => offer c (replyFrame e.requester e.tag e.index .aborted []) m) n =
      { n with ring := r, flt := f } := by
  induction es with
  | nil => exact fun n => ⟨n.ring, n.flt, rfl⟩
  | cons e es ih =>
    intro n
    obtain ⟨r, f, h⟩ := ih (offer c (replyFrame e.requester e.tag e.index .aborted []) n)
    exact ⟨r, f, h⟩

theorem abortAll_rest : ∃ r f, abortAll c n =
    { n with dir := { n.dir with table := [] }, ring := r, flt := f } := offerAll_rest c _ _

theorem offerAll_room (es : List ReqEntry) : ∀ n : Node, n.ring.sending.isSome = true →
    n.ring.insertQueue.length + es.length ≤ 16 → n.memb.ring.admits .reply = true →
    es.foldl (fun m e => offer c (replyFrame e.requester e.tag e.index .aborted []) m) n =
      { n with ring := { n.ring with insertQueue := n.ring.insertQueue ++ abortedFrames es } } := by
  induction es with
  | nil =>
    intro n _ _ _
    rw [abortedFrames, List.map_nil, List.append_nil]
    rfl
  | cons e es ih =>
    intro n hb hq ha
    rw [List.length_cons] at hq
    rw [List.foldl_cons, offer_room _ _ _ hb (by omega) (by exact ha) rfl,
      ih _ (by exact hb) (by rw [List.length_append, List.length_singleton]; omega) (by exact ha)]
    simp only [abortedFrames, List.map_cons, List.append_assoc, List.singleton_append]

/-- The node as a soft reset leaves it, before the link is served (R194). -/
def Node.restarted (r : RingPort) (f : FaultUnit) (n : Node) : Node :=
  softResetBlocks c { n with dir := { n.dir with table := [] }, ring := r, flt := f }

theorem resetFlags_lines (k : Fin 4) : getFour (resetFlags c n).trip.lines k =
    { getFour n.trip.lines k with flag := levelMeets (getFour c.config.lines k) (getFour n.pins.lines k) } := by
  fin_cases k <;> rfl

theorem softReset_quiet (hr : n.memb.ring ≠ .claiming) : ∃ r f, softReset c n =
    settle c (pump c (n.restarted c r f)) := by
  obtain ⟨r, f, h⟩ := abortAll_rest c { n with flt := n.flt.softReset }
  refine ⟨r, f, ?_⟩
  unfold softReset
  rw [h]
  exact if_neg hr

theorem softReset_room (hr : n.memb.ring ≠ .claiming) (hb : n.ring.sending.isSome = true) (hw : n.flt.raised = [])
    (hq : n.ring.insertQueue.length + n.dir.table.length ≤ 16) (ha : n.memb.ring.admits .reply = true) :
    softReset c n = softResetBlocks c { n with
      dir := { n.dir with table := [] }
      ring := { n.ring with insertQueue := n.ring.insertQueue ++ abortedFrames n.dir.table }
      flt := FaultUnit.powerOn } := by
  have hclear : n.flt.softReset = FaultUnit.powerOn := by
    unfold FaultUnit.softReset
    rw [hw]
    rfl
  have habort : abortAll c { n with flt := n.flt.softReset } = { n with
      dir := { n.dir with table := [] }
      ring := { n.ring with insertQueue := n.ring.insertQueue ++ abortedFrames n.dir.table }
      flt := FaultUnit.powerOn } := by
    rw [hclear]
    exact offerAll_room c n.dir.table { n with dir := { n.dir with table := [] }, flt := FaultUnit.powerOn }
      hb hq ha
  unfold softReset
  rw [habort]
  refine (if_neg (by exact hr)).trans ?_
  rw [pump_busy _ _ (by exact hb), settle_none _ _ (by rfl)]

end Reset

theorem writeNodeReset_range (c : Settings) (h : Header) {v : Byte} (n : Node) (hv : v ≠ 1) :
    writeNodeReset c h v n = answer c h 21 .range n := if_pos hv

theorem writeNodeReset_state (c : Settings) (h : Header) {n : Node} (hs : n.seq.stand.quietish = false) :
    writeNodeReset c h 1 n = answer c h 21 .state n := by
  simp [writeNodeReset, hs]

theorem writeNodeReset_resets (c : Settings) (h : Header) {n : Node} (hs : n.seq.stand.quietish = true) :
    writeNodeReset c h 1 n = softReset c (answer c h 21 .done n) := by
  simp [writeNodeReset, hs]

theorem not_claiming_of_hands {h : Header} (hh : s.hands h) : s.node.memb.ring ≠ .claiming := by
  intro hr
  have := admits_of_hands hh .reply
  rw [hr] at this
  cases this

/-- A soft reset taken, whatever the link does: the node as the blocks' clearings leave it. -/
theorem nodeReset_resets {h : Header} (hh : s.hands h) (hs : s.node.seq.stand.quietish = true) : ∃ r f r' f',
    finish s.settings (writeNodeReset s.settings h 1 s.node) =
      { s.node.restarted s.settings r f with ring := r', flt := f' } := by
  obtain ⟨r, f, hreset⟩ := softReset_quiet s.settings (answer s.settings h 21 .done s.node)
    (not_claiming_of_hands hh)
  rw [writeNodeReset_resets _ _ hs, hreset]
  exact ⟨r, f, _, _, rfl⟩

/-- Entry to QUIET from a quiet stand state leaves what a soft reset does not clear (R110). -/
theorem enterQuiet_gap_quietish (c : Settings) {n : Node} (hs : n.seq.stand.quietish = true) :
    (enterQuietQuietly c n).gap = ({ n.gap with
      base := some c.config.standbyGap, ff := 0, monitor := 0, profileTrim := 0, clampMark := false
      waiting := none } : GapControl).placed c.config c.config.standbyGap := by
  have hnot : n.seq.stand ≠ .tripped := by
    intro hn
    rw [hn] at hs
    cases hs
  rw [← refer_eq_placed, ← enterQuiet_gap c hnot, enterQuiet, if_neg (by simp [hnot])]

/-- A reference placed leaves the stored terms, the cache and the port. -/
theorem placed_rest (c : NodeConfig) (k : Nat) (g : GapControl) : ∃ v x y z, g.placed c k = { g with
    reference := k, supervision := v, target := x, timer := y, moves := z } := by
  unfold GapControl.placed
  dsimp only
  split
  · exact ⟨_, _, _, _, rfl⟩
  · split
    · exact ⟨g.supervision, _, _, _, rfl⟩
    · split
      · exact ⟨g.supervision, _, g.timer, g.moves, rfl⟩
      · exact ⟨g.supervision, g.target, g.timer, g.moves, rfl⟩

/-- Settles O48: by the value and the stand state; a reset that is taken clears every block. -/
theorem nodeResetTakesSoftReset : Obligations.NodeResetTakesSoftReset := by
  intro h v s hl ha n
  have hh : s.hands h := ha.1
  refine ⟨_, exec_nodeReset h v hl ha, fun hv => ?_, fun hv hs => ?_, fun hv hs => ?_⟩
  · rw [writeNodeReset_range _ _ _ hv]
    exact answered_unchanged hh 21 .range
  · rw [hv, writeNodeReset_state _ _ hs]
    exact answered_unchanged hh 21 .state
  · obtain ⟨r, f, r', f', hm⟩ := nodeReset_resets hh hs
    have hquiet := enterQuiet_gap_quietish s.settings (n := { s.node with
      dir := { s.node.dir with table := [] }, ring := r, flt := f }) hs
    obtain ⟨a, x, y, z, hplaced⟩ := placed_rest s.settings.config s.settings.config.standbyGap { n.gap with
      base := some s.settings.config.standbyGap, ff := 0, monitor := 0, profileTrim := 0, clampMark := false
      waiting := none }
    have hgap : (s.node.restarted s.settings r f).gap = ({ n.gap with
        base := some s.settings.config.standbyGap, ff := 0, monitor := 0, profileTrim := 0, clampMark := false
        waiting := none, reference := s.settings.config.standbyGap, supervision := a, target := x, timer := y
        moves := z } : GapControl).softReset := congrArg GapControl.softReset (hquiet.trans hplaced)
    subst hv
    refine ⟨congrArg Node.seq hm, congrArg Node.memb hm, congrArg Node.dir hm, congrArg Node.meas hm,
      congrArg Node.track hm, congrArg Node.sched hm, ?_⟩
    have hg := (congrArg Node.gap hm).trans hgap
    rw [withNode_node, hg]
    refine ⟨rfl, rfl, rfl, rfl, rfl, rfl, rfl, rfl, ?_, rfl, rfl, rfl, congrArg Node.startup hm, ?_, fun k => ?_,
      ⟨rfl, rfl, rfl, ?_⟩, fun hroom => ?_⟩
    · exact (List.length_map _).trans (List.length_take.trans (Nat.min_comm _ _))
    · rw [hm]
      rfl
    · rw [hm]
      exact resetFlags_lines s.settings _ k
    · rw [withNode_node, hm]
      exact Node.keepsBut_of_overlay rfl
    · obtain ⟨hb, hw, hq⟩ := hroom
      rw [writeNodeReset_resets _ _ hs, answer_room _ _ _ _ _ hb hw (by omega) (admits_of_hands hh _),
        softReset_room _ _ (by exact not_claiming_of_hands hh) (by exact hb) (by exact hw) (by
          rw [List.length_append, List.length_singleton]
          exact Nat.add_assoc _ _ _ ▸ hq) (by exact admits_of_hands hh _),
        finish_quiet _ _ (by exact hb) (by rfl)]
      have hlen : (n.ring.insertQueue ++ [answerFrame h (byte 21) Status.done.code] ++
          abortedFrames n.dir.table).length = n.ring.insertQueue.length + 1 + n.dir.table.length := by
        rw [abortedFrames, List.length_append, List.length_append, List.length_map, List.length_singleton]
      refine ⟨rfl, ?_⟩
      rw [← hlen]
      rfl

/-! ## The reset cause (R195) -/

/-- Settles O25: a read answered with the cause and the count, the end of a reset, and a soft reset. -/
theorem resetCauseIsReadAndKept : Obligations.ResetCauseIsReadAndKept := by
  refine ⟨?_, fun station wp s => ⟨_, rfl, rfl, rfl⟩, fun h s hl ha hs => ?_⟩
  · intro bytes f arg s hl hj hk hp hh hhop hroom ho
    have hvalue : readValue s.settings (s.node.passed f) (23 : Byte).toNat 0 =
        some (s.node.startup.cause.code :: natBytes s.node.startup.softResets) := rfl
    have hclass : readRefused s.settings (23 : Byte).toNat = none := by
      simp [readRefused, settledClass_resetCause _ ho]
    obtain ⟨t, ht, hkeeps, hring⟩ := readFrame_answered hl hj hk hp hh hhop hroom (by decide)
      (readRequest_done s.settings f.header (s.node.passed f) hclass (by decide) hvalue)
    refine ⟨t, ht, hkeeps, fun h1 => ?_⟩
    rw [(hring h1).2]
    have hcause : s.node.startup.cause.code =
        (match s.node.startup.cause with | .powerOn => 0 | .hard => 1 | .soft => 2) := by
      cases s.node.startup.cause <;> rfl
    refine ⟨(hring h1).1, ?_⟩
    rw [hcause]
    rfl
  · obtain ⟨r, f, r', f', hm⟩ := nodeReset_resets ha.1 hs
    refine ⟨_, exec_nodeReset h 1 hl ha, ?_⟩
    rw [withNode_node, hm]
    exact ⟨rfl, rfl⟩

end Sys2Proof.Machine
end

section
/-! SUPPORT. What reads return (R40, R41, R58, R78, R104, R119, R137, R157, R158, R176, R186, R193, R195): the values and
the fields as R197 lays them out. -/

namespace Sys2Proof.Machine

set_option Elab.async false

/-! ## ACTIVE_SCHEDULE (R137) -/

theorem activeSlotFrom_none {k : Nat} {es : List Slot}
    (h : es.findSome? (fun x => match x with | .active id r => some (id, r) | _ => none) = none) :
    activeSlotFrom k es = 0 := by
  induction es generalizing k with
  | nil => rfl
  | cons x es ih =>
    cases x with
    | active id r => simp at h
    | _ => exact ih h

theorem activeSlotFrom_some {id : Nat} {r : Schedule} {k : Nat} {es : List Slot}
    (h : es.findSome? (fun x => match x with | .active id r => some (id, r) | _ => none) = some (id, r)) :
    ∃ i, es[i]? = some (.active id r) ∧ activeSlotFrom k es = k + i := by
  induction es generalizing k with
  | nil => cases h
  | cons x es ih =>
    cases x with
    | active a b =>
      simp only [List.findSome?_cons_of_isSome, Option.isSome_some, Option.some.injEq, Prod.mk.injEq] at h
      obtain ⟨rfl, rfl⟩ := h
      exact ⟨0, rfl, rfl⟩
    | _ =>
      obtain ⟨i, hi, hslot⟩ := ih (k := k + 1) h
      exact ⟨i + 1, hi, hslot.trans (by omega)⟩

theorem readActiveSchedule_none {n : Node} (h : n.sched.active = none) :
    readActiveSchedule n = List.replicate 23 0 := by
  have hslot : activeSlotFrom 1 (listFour n.sched.slots) = 0 := activeSlotFrom_none h
  simp only [readActiveSchedule, SchedStore.activeId, h, hslot]
  rfl

theorem readActiveSchedule_some {n : Node} {id : Nat} {r : Schedule} (h : n.sched.active = some (id, r)) :
    ∃ i, (listFour n.sched.slots)[i]? = some (.active id r) ∧
      readActiveSchedule n = natBytes id ++ [byte (i + 1), 1] ++ scheduleFields r := by
  obtain ⟨i, hi, hslot⟩ := activeSlotFrom_some (k := 1) h
  refine ⟨i, hi, ?_⟩
  simp only [readActiveSchedule, SchedStore.activeId, h, hslot, Nat.add_comm 1 i]
  rfl

/-! ## The admission of a write (R49) -/

section Write
variable {s : State} {h : Header} {index : Byte} {value : List Byte}

theorem exec_objectWrite (hl : s.live) (hh : s.hands h) : exec (.objectWrite h index value) s =
    .next (s.withNode (finish s.settings (writeRequest s.settings h index value s.node))) := by
  have hexec : exec (.objectWrite h index value) s = s.act (fun c n => writeArrives c h index value n) := rfl
  rw [hexec, State.act_live _ _ hl]
  unfold State.hands at hh
  simp only [writeArrives, hh, if_true]

/-- A write that is answered changes nothing (R50). -/
theorem objectWrite_answered (hl : s.live) (hh : s.hands h) {st : Status}
    (hw : writeRequest s.settings h index value s.node = answer s.settings h index.toNat st s.node) :
    ∃ t, exec (.objectWrite h index value) s = .next t ∧ s.keepsBut [.ring, .flt] t ∧
      s.offers [answerFrame h index st.code] t := by
  refine ⟨_, exec_objectWrite hl hh, ?_⟩
  have hanswer := answered_unchanged hh index.toNat st
  rw [byte_toNat] at hanswer
  rw [hw]
  exact hanswer

theorem objectWrite_refused (hl : s.live) (hh : s.hands h) {st : Status}
    (hw : writeRefused s.settings h index.toNat value.length s.node = some st) :
    ∃ t, exec (.objectWrite h index value) s = .next t ∧ s.keepsBut [.ring, .flt] t ∧
      s.offers [answerFrame h index st.code] t :=
  objectWrite_answered hl hh (by rw [writeRequest, hw])

variable (c : Settings) (n : Node)

theorem classRefuses_closed {k : AccessClass} {i : Nat} (hk : k = .closed ∨ k = .read) :
    classRefuses c h i n k = some .access := by
  obtain rfl | rfl := hk
  · rfl
  · rfl

theorem classRefuses_writable {k : AccessClass} {i : Nat} (hk : ¬ (k = .closed ∨ k = .read)) :
    classRefuses c h i n k =
      if h.dest = stationAll && !broadcastWritable i then some .access
      else if k = .gated && !inAuthority c h.source then some .access
      else if k = .quietWrite && !n.seq.stand.quietish then some .state
      else none := by
  cases k with
  | closed => exact absurd (.inl rfl) hk
  | read => exact absurd (.inr rfl) hk
  | _ => rfl

theorem writeRefused_unknown {i len : Nat} (hk : settledClass c i = none) :
    writeRefused c h i len n = some .noObject := by
  simp only [writeRefused, hk]

/-- What a broadcast may not write (Table 3-2). -/
theorem broadcast_refused_iff {i : Nat} :
    (h.dest = stationAll && !broadcastWritable i) = true ↔ h.dest = 31 ∧ i ≠ 8 ∧ i ≠ 9 ∧ i ≠ 15 := by
  simp only [broadcastWritable, Bool.and_eq_true, decide_eq_true_eq, Bool.not_eq_true', Bool.or_eq_false_iff,
    decide_eq_false_iff_not, and_assoc]
  rfl

theorem writeRefused_class {k : AccessClass} {i len : Nat} (hk : settledClass c i = some k) {st : Status}
    (hc : classRefuses c h i n k = some st) : writeRefused c h i len n = some st := by
  simp only [writeRefused, hk, hc]

theorem writeRefused_length {k : AccessClass} {i len : Nat} (hk : settledClass c i = some k)
    (hc : classRefuses c h i n k = none) :
    writeRefused c h i len n = if len ≠ valueSize i then some .range else none := by
  simp only [writeRefused, hk, hc]

/-- An admitted STAND_COMMAND of another value is refused by its owner. -/
theorem ownerWrite_standCommand (hlen : value.length = valueSize 2) (hv : value ≠ [1] ∧ value ≠ [2]) :
    ownerWrite c h 2 value n = answer c h 2 .range n := by
  obtain ⟨v, rfl⟩ := List.length_eq_one_iff.mp hlen
  have h1 : v ≠ 1 := fun hv1 => hv.1 (by rw [hv1])
  have h2 : v ≠ 2 := fun hv2 => hv.2 (by rw [hv2])
  exact (if_neg h1).trans (if_neg h2)

theorem quietish_eq_false_iff {st : StandState} :
    st.quietish = false ↔ st ≠ .quiet ∧ st ≠ .preset ∧ st ≠ .ready := by
  cases st <;> simp [StandState.quietish]

theorem inAuthority_eq_false_iff {source : Byte} :
    inAuthority c source = false ↔ source.toNat ∉ c.config.authority := by
  simp [inAuthority]

end Write

/-! ## The admission of a read (R48) -/

section Read
variable {c : Settings} {n : Node} {index a2 : Byte}

theorem readRefused_none_of {k : AccessClass} (hk : settledClass c index.toNat = some k) (hc : k ≠ .closed) :
    readRefused c index.toNat = none := by
  unfold readRefused
  rw [hk]
  cases k with
  | closed => exact absurd rfl hc
  | _ => rfl

theorem zero_iff_toNat : a2 = 0 ↔ a2.toNat = 0 :=
  ⟨fun h => by rw [h]; rfl, fun h => BitVec.eq_of_toNat_eq h⟩

theorem readValue_counts : readValue c n 17 a2 = if a2 = 0 ∨ 32 < a2.toNat then none
    else some (a2 :: natBytes (n.flt.counters.getD (a2.toNat - 1) 0)) := by
  have hrange : ¬ (a2 = 0 ∨ 32 < a2.toNat) ↔ (1 ≤ a2.toNat && a2.toNat ≤ 32) = true := by
    rw [zero_iff_toNat, Bool.and_eq_true, decide_eq_true_eq, decide_eq_true_eq]
    omega
  unfold readValue
  by_cases h : a2 = 0 ∨ 32 < a2.toNat
  · rw [if_pos h]
    exact if_neg (mt hrange.mpr (not_not.mpr h))
  · rw [if_neg h]
    exact if_pos (hrange.mp h)

theorem readValue_part (h17 : index ≠ 17) (h22 : index ≠ 22) : readValue c n index.toNat a2 =
    if a2 ≠ 0 ∧ (objectValue c n index.toNat).length ≤ 44 * a2.toNat then none
    else some (((objectValue c n index.toNat).drop (44 * a2.toNat)).take 44) := by
  have hne : ∀ k : Byte, index ≠ k → index.toNat ≠ k.toNat := fun k h he => h (BitVec.eq_of_toNat_eq he)
  have hpart : readValue c n index.toNat a2 = partOf a2.toNat (objectValue c n index.toNat) := by
    unfold readValue
    split
    next h => exact absurd h (hne 17 h17)
    next h => exact absurd h (hne 22 h22)
    next => rfl
  have hbeyond : (a2 ≠ 0 ∧ (objectValue c n index.toNat).length ≤ 44 * a2.toNat) ↔
      (0 < a2.toNat && (objectValue c n index.toNat).length ≤ 44 * a2.toNat) = true := by
    rw [ne_eq, zero_iff_toNat, Bool.and_eq_true, decide_eq_true_eq, decide_eq_true_eq, Nat.pos_iff_ne_zero]
  rw [hpart, partOf]
  by_cases h : a2 ≠ 0 ∧ (objectValue c n index.toNat).length ≤ 44 * a2.toNat
  · rw [if_pos h, if_pos (hbeyond.mp h)]
  · rw [if_neg h, if_neg (mt hbeyond.mpr h)]

end Read

/-! ## The values and the fields -/

/-- Settles O36: the admission of a write and of a read in their order, the values, and the fields of the
configuration view. -/
theorem writeIsRefusedInOrder : Obligations.WriteIsRefusedInOrder := by
  refine ⟨?_, ?_, ?_, ?_⟩
  · intro h index value s hl hh i refused
    have hanswer : ∀ {st : Status}, writeRefused s.settings h i value.length s.node = some st →
        refused st.code := fun hw => objectWrite_refused hl hh hw
    split
    next hk => exact hanswer (st := .noObject) (writeRefused_unknown _ _ hk)
    next k hk =>
      split
      next hc => exact hanswer (writeRefused_class _ _ hk (classRefuses_closed _ _ hc))
      next hc =>
        have hclass := classRefuses_writable (h := h) (i := i) s.settings s.node hc
        split
        next hd =>
          exact hanswer (writeRefused_class _ _ hk (hclass.trans (if_pos (broadcast_refused_iff.mpr hd))))
        next hd =>
          rw [if_neg (mt broadcast_refused_iff.mp hd)] at hclass
          simp only [Bool.and_eq_true, decide_eq_true_eq, Bool.not_eq_true', inAuthority_eq_false_iff,
            quietish_eq_false_iff] at hclass
          split
          next hg => exact hanswer (writeRefused_class _ _ hk (hclass.trans (if_pos hg)))
          next hg =>
            rw [if_neg hg] at hclass
            split
            next hq => exact hanswer (writeRefused_class _ _ hk (hclass.trans (if_pos hq)))
            next hq =>
              have hlength := writeRefused_length (len := value.length) _ _ hk (hclass.trans (if_neg hq))
              split
              next hv => exact hanswer (hlength.trans (if_pos hv))
              next hv =>
                split
                next h2 =>
                  obtain ⟨hi, hvalue⟩ := h2
                  refine objectWrite_answered (st := .range) hl hh ?_
                  have hadmit := hlength.trans (if_neg hv)
                  rw [writeRequest, hadmit]
                  change ownerWrite s.settings h i value s.node = _
                  rw [show index.toNat = 2 from hi, hi]
                  exact ownerWrite_standCommand _ _ (by rw [not_not.mp hv, hi]) hvalue
                next => exact ⟨_, exec_objectWrite hl hh⟩
  · intro bytes f index a1 a2 s hl hj hk hp hh hhop hroom hi n value answered
    have hdone : ∀ {st : Status} {v : List Byte}, readRequest s.settings f.header index a1 a2 (s.node.passed f) =
        reply s.settings f.source f.tag index.toNat st v (s.node.passed f) → answered st.code v :=
      fun hr => readFrame_answered hl hj hk hp hh hhop hroom hi hr
    have hrefused : ∀ {st : Status}, readRefused s.settings index.toNat = some st → answered st.code [] :=
      fun hr => hdone (readRequest_refused _ _ _ hr)
    split
    next hk => exact hrefused (st := .noObject) (by rw [readRefused, hk])
    next hk =>
      split
      next hc => exact hrefused (st := .access) (by rw [readRefused, hc])
      next hc =>
        obtain ⟨k, hk⟩ := Option.ne_none_iff_exists'.mp hk
        have hadmit : readRefused s.settings index.toNat = none :=
          readRefused_none_of hk fun hclosed => hc (hk.trans (congrArg some hclosed))
        have hvalue : ∀ {v : Option (List Byte)}, readValue s.settings (s.node.passed f) index.toNat a2 = v →
            (match v with | some v => answered 0 v | none => answered 4 []) := by
          intro v hv
          cases v with
          | none => exact hdone (readRequest_range _ _ _ hadmit hi hv)
          | some v => exact hdone (readRequest_done _ _ _ hadmit hi hv)
        split
        next h17 =>
          have hcounts := readValue_counts (c := s.settings) (n := s.node.passed f) (a2 := a2)
          subst h17
          split
          next hz => exact hvalue (hcounts.trans (if_pos hz))
          next hz => exact hvalue (hcounts.trans (if_neg hz))
        next h17 =>
          split
          next h22 =>
            subst h22
            have hfield := hvalue (v := configField s.settings a2.toNat) rfl
            revert hfield
            cases configField s.settings a2.toNat with
            | none => exact id
            | some v => exact id
          next h22 =>
            have hpart := readValue_part (c := s.settings) (n := s.node.passed f) (a2 := a2) h17 h22
            split
            next hz => exact hvalue (hpart.trans (if_pos hz))
            next hz => exact hvalue (hpart.trans (if_neg hz))
  · intro c n value k flag nat m g tr origin line neighbour slot
    refine ⟨rfl, rfl, fun ha => readActiveSchedule_none ha, fun id r ha => readActiveSchedule_some ha, rfl, ?_, rfl,
      rfl, rfl, rfl, rfl, rfl, ⟨g.queue.head?.elim 0 fun o => Config.opKindCode o.tagKind.2, ?_⟩, ?_,
      ⟨present 4 (fun k => narrowBytes k.1 ++ narrowBytes k.2) tr.comparison, ?_, ?_, ?_⟩, ?_, rfl, ?_, rfl, ?_,
      rfl, ?_⟩
    · have hslot : slotFields = slot := by
        funext x
        cases x with
        | _ => rfl
      have hprofile : present 5 (fun p => halfBytes p.weld ++ natBytes p.id ++ [byte p.nextEntry]) n.sched.profile =
          (match n.sched.profile with
            | none => [0, 0, 0, 0, 0, 0]
            | some p => 1 :: halfBytes p.weld ++ nat p.id ++ [byte p.nextEntry]) := by
        cases n.sched.profile with
        | none => rfl
        | some x => rfl
      change readSlotStatus n = _
      rw [readSlotStatus, hslot, hprofile]
      simp only [counts_cons, counts_nil, List.append_nil, List.append_assoc]
      rfl
    · -- the base, the operation in service and the waiting lookup
      have hbase : present 2 natBytes g.base =
          (match g.base with
            | none => [0, 0, 0]
            | some b => 1 :: nat b) := by
        cases g.base with
        | none => rfl
        | some x => rfl
      have hwaiting : present 3 (fun w => [byte w.tag.pclass, byte w.tag.band, flagByte w.wanted]) g.waiting =
          (match g.waiting with
            | none => [0, 0, 0, 0]
            | some w => [1, byte w.tag.pclass, byte w.tag.band, flag w.wanted]) := by
        cases g.waiting with
        | none => rfl
        | some x => rfl
      have hop : present 3 (fun o => [Config.opKindCode o.tagKind.2, byte o.tagKind.1.pclass, byte o.tagKind.1.band])
          g.queue.head? = (match g.queue.head? with
            | none => [0, 0, 0, 0]
            | some (.fill t) => [1, g.queue.head?.elim 0 fun o => Config.opKindCode o.tagKind.2, byte t.pclass, byte t.band]
            | some (.write r _) =>
              [1, g.queue.head?.elim 0 fun o => Config.opKindCode o.tagKind.2, byte r.tag.pclass, byte r.tag.band]) := by
        cases g.queue.head? with
        | none => rfl
        | some o =>
          cases o with
          | fill t => rfl
          | write r e => rfl
      change readGapStatus n = _
      rw [readGapStatus, hbase, hop, hwaiting]
      simp only [counts_cons, counts_nil, List.append_nil, List.append_assoc]
      rfl
    · have hreversal : present 4 posBytes m.reversal =
          (match m.reversal with
            | none => [0, 0, 0, 0, 0]
            | some p => 1 :: posBytes p) := by
        cases m.reversal with
        | none => rfl
        | some x => rfl
      change readForceStatus n = _
      rw [readForceStatus, hreversal]
      simp only [counts_cons, counts_nil, List.append_nil, List.append_assoc]
      rfl
    · intro a d hc ha ha' hd hd'
      rw [hc, present_some, narrowBytes_of_fits ha ha', narrowBytes_of_fits hd hd']
    · intro hc
      rw [hc]
      rfl
    · have hopen : present 11 (fun g => halfBytes g.number ++ posBytes g.spanStart ++ counts [g.good, g.suspect] ++
          [packFlags [g.head, g.weld]]) tr.openSeg =
          (match tr.openSeg with
            | none => List.replicate 12 0
            | some o => 1 :: halfBytes o.number ++ posBytes o.spanStart ++ nat o.good ++
                nat o.suspect ++ [packFlags [o.head, o.weld]]) := by
        cases tr.openSeg with
        | none => rfl
        | some x => rfl
      have hends : present 4 (fun e => halfBytes e.1 ++ halfBytes e.2) (trackEnds tr.exitTrack) =
          (match tr.exitTrack.head?, tr.exitTrack.getLast? with
            | some a, some b => 1 :: halfBytes a.number ++ halfBytes b.number
            | _, _ => [0, 0, 0, 0, 0]) := by
        unfold trackEnds
        cases tr.exitTrack.head? with
        | none => rfl
        | some a =>
          cases tr.exitTrack.getLast? with
          | none => rfl
          | some b => rfl
      have hhead : present 7 (fun r => halfBytes r.number ++ posBytes r.due ++ [flagByte tr.headWaiting]) tr.arrival.head? =
          (match tr.arrival.head? with
            | none => [0, 0, 0, 0, 0, 0, 0, 0]
            | some r => 1 :: halfBytes r.number ++ posBytes r.due ++ [flag tr.headWaiting]) := by
        cases tr.arrival.head? with
        | none => rfl
        | some x => rfl
      have hexpected : present 2 halfBytes tr.expected =
          (match tr.expected with
            | none => [0, 0, 0]
            | some e => 1 :: halfBytes e) := by
        cases tr.expected with
        | none => rfl
        | some x => rfl
      have hbaseline : present 6 (fun b => halfBytes b.1 ++ posBytes b.2) tr.baseline =
          (match tr.baseline with
            | none => [0, 0, 0, 0, 0, 0, 0]
            | some b => 1 :: halfBytes b.1 ++ posBytes b.2) := by
        cases tr.baseline with
        | none => rfl
        | some x => rfl
      change readTrackStatus n = _
      rw [readTrackStatus, hopen, hends, hhead, hexpected, hbaseline]
      simp only [TrackCounts.list, counts_cons, counts_nil, List.append_nil, List.append_assoc]
      rfl
    · have horigin : ∀ o, present 6 originFields o = origin o := by
        intro o
        cases o with
        | none => rfl
        | some o => rfl
      change readTripOrigins c n = _
      rw [readTripOrigins, horigin, horigin]
      simp only [counts_cons, counts_nil, List.append_nil, List.append_assoc]
      rfl
    · have hfirst : present 5 (fun e => [byte e.code.number, e.cls.code, e.stand.code] ++ halfBytes e.number)
          n.flt.first =
          (match n.flt.first with
            | none => [0, 0, 0, 0, 0, 0]
            | some e => [1, byte e.code.number, e.cls.code, e.stand.code] ++ halfBytes e.number) := by
        cases n.flt.first with
        | none => rfl
        | some x => rfl
      change readFaultSummary c n = _
      rw [readFaultSummary, hfirst]
      simp only [counts_cons, counts_nil, List.append_nil, List.append_assoc]
      rfl
    · have hneighbour : ∀ st r, neighbourFields st r = neighbour st r := by
        intro st r
        cases hb : r.lastBeacon with
        | none => simp only [neighbourFields, neighbour, hb]; rfl
        | some b => simp only [neighbourFields, neighbour, hb]; rfl
      change readNeighbours c n = _
      rw [readNeighbours, hneighbour, hneighbour]
    · have happlied : present 4 (fun a => halfBytes a.1 ++ natBytes a.2) g.lastApplied =
          (match g.lastApplied with
            | none => [0, 0, 0, 0, 0]
            | some a => 1 :: halfBytes a.1 ++ nat a.2) := by
        cases g.lastApplied with
        | none => rfl
        | some x => rfl
      have hcoefs : present 6 CoefRecord.value g.lastCoefs =
          (match g.lastCoefs with
            | none => [0, 0, 0, 0, 0, 0, 0]
            | some r => [1, byte r.tag.pclass, byte r.tag.band] ++ intBytes r.ff ++ nat r.mon) := by
        cases g.lastCoefs with
        | none => rfl
        | some x => rfl
      change readMonitorStatus n = _
      rw [readMonitorStatus, happlied, hcoefs]
      simp only [counts_cons, counts_nil, List.append_nil, List.append_assoc]
      rfl
  · intro c field k lineOf
    refine ⟨rfl, rfl, rfl, rfl, rfl, rfl, ?_, rfl, rfl, rfl, rfl, rfl, rfl, ?_, rfl, rfl, rfl, ?_, rfl,
      fun i hi => configField_above c hi⟩
    · intro i hi
      interval_cases i <;> rfl
    · rfl
    · intro i hi
      have hclosure : closureCode (k.closures.getD i .openTo) =
          (match k.closures.getD i .openTo with | .openTo => 0 | .quiet => 1 | .closed => 2) := by
        cases k.closures.getD i .openTo <;> rfl
      have hclass : ((settledClass c i).map AccessClass.code).getD 0 =
          (match settledClass c i with
            | none | some .closed => 0 | some .read => 1 | some .readWrite => 2
            | some .quietWrite => 3 | some .gated => 4) := by
        cases settledClass c i with
        | none => rfl
        | some a => cases a <;> rfl
      exact (configField_object c hi).trans (congrArg₂ (fun a b : Byte => some [a, b]) hclosure hclass)

end Sys2Proof.Machine
end

section
/-! SUPPORT. Causes in a stand that has tripped, and the rows of the Trip Unit's inputs (R148, R160 to R163, R172,
R174, R192). -/

namespace Sys2Proof.Machine

set_option Elab.async false

/-! ## A local cause in TRIPPED and LOCKOUT (R163, R165, R174) -/

section Stopped
variable (c : Settings) {n : Node} (kind detail : Byte)

theorem stopped_of_tripped (h : n.seq.stand = .tripped) : n.seq.stand.stopped = true := by rw [h]; rfl

theorem afterCause_of_recorded {station : Nat} {o : Origin} {t : TripUnit} (h : t.recorded station = true) :
    t.afterCause station o = { t with localRepeats := satInc t.localRepeats } := if_pos h

theorem afterCause_placed {station : Nat} {o : Origin} {t : TripUnit} (h : ¬ t.recorded station = true) :
    t.afterCause station o = t.placeOrigin o := if_neg h

/-- In TRIPPED and LOCKOUT a local cause makes its entry in the origin record, and nothing more. -/
theorem takeCause_rest (hs : n.seq.stand.stopped = true) : ∃ r f, takeCause c kind detail n = { n with
    trip := n.trip.afterCause c.station (ownOrigin c kind detail n), ring := r, flt := f } := by
  rw [takeCause_stopped _ _ _ _ hs]
  split
  next h =>
    rw [afterCause_of_recorded h]
    exact ⟨_, _, rfl⟩
  next h =>
    rw [afterCause_placed h]
    exact ⟨_, _, rfl⟩

theorem takeCause_room (hs : n.seq.stand.stopped = true) (hb : n.ring.sending.isSome = true) :
    takeCause c kind detail n = { n with
      trip := n.trip.afterCause c.station (ownOrigin c kind detail n)
      ring := { n.ring with tripSlot := slotAfter c kind detail n } } := by
  rw [takeCause_stopped _ _ _ _ hs, slotAfter]
  split
  next h => rw [afterCause_of_recorded h]
  next h =>
    rw [afterCause_placed h, placeOwn, offerTrip, pump_busy _ _ (by exact hb)]
    rfl

/-- The stand state after a FATAL fault in TRIPPED or LOCKOUT: an actuator fault in TRIPPED locks the stand out
(R174). -/
def standAfter (actuator : Bool) (st : StandState) : StandState :=
  if actuator && st = .tripped then .lockout else st

theorem localCause_stopped (a : Bool) (hs : n.seq.stand.stopped = true) :
    localCause c kind detail a n = { takeCause c kind detail n with
      seq := { n.seq with stand := standAfter a n.seq.stand } } := by
  have hnot : n.seq.stand ≠ .starting := by
    intro h
    rw [h] at hs
    cases hs
  obtain ⟨r, f, htake⟩ := takeCause_rest c kind detail hs
  unfold localCause standAfter
  rw [if_neg hnot, htake]
  split
  · rfl
  · rfl

theorem localCause_stopped_rest (hs : n.seq.stand.stopped = true) : ∃ r f,
    localCause c kind detail false n = { n with
      trip := n.trip.afterCause c.station (ownOrigin c kind detail n), ring := r, flt := f } := by
  obtain ⟨r, f, htake⟩ := takeCause_rest c kind detail hs
  refine ⟨r, f, ?_⟩
  rw [localCause_stopped _ _ _ _ hs, htake]
  rfl

theorem localCause_stopped_room (hs : n.seq.stand.stopped = true) (hb : n.ring.sending.isSome = true) :
    localCause c kind detail false n = { n with
      trip := n.trip.afterCause c.station (ownOrigin c kind detail n)
      ring := { n.ring with tripSlot := slotAfter c kind detail n } } := by
  rw [localCause_stopped _ _ _ _ hs, takeCause_room _ _ _ hs hb]
  rfl

/-- A FATAL event is a local cause (R182). -/
theorem routeEvent_fatal (code : FaultCode) (m : Node) (hf : code.cls n.seq.stand = .fatal) :
    routeEvent c (eventOf code n) m = localCause c 2 (byte code.number) code.actuator m := by
  unfold routeEvent
  rw [show (eventOf code n).cls = .fatal from hf]
  rfl

/-- The report of an event that has been counted, given room (R183, R184). -/
theorem reportEvent_counted {ev : FaultEvent} {q : Node} {f : FaultUnit} (hflt : q.flt = f.count ev)
    (hw : f.raised = []) (he : ev.report = true) (hb : q.ring.sending.isSome = true)
    (hq : q.ring.insertQueue.length < 16) : reportEvent c ev q = { q with
      flt := f.after c ev
      ring := { q.ring with insertQueue := queueAfter c q.memb.ring ev f q.ring.insertQueue } } := by
  unfold reportEvent
  rw [hflt, Rep.report_room c (ctxOf c q) ev f q.ring rfl rfl hw he hb hq]
  rfl

/-- A FATAL fault in TRIPPED or LOCKOUT, the transmit side apart. -/
theorem raise_stopped (code : FaultCode) (hs : n.seq.stand.stopped = true)
    (hf : code.cls n.seq.stand = .fatal) : ∃ r f, raise c code n = { n with
      seq := { n.seq with stand := standAfter code.actuator n.seq.stand }
      trip := n.trip.afterCause c.station (ownOrigin c 2 (byte code.number) n), ring := r, flt := f } := by
  obtain ⟨r, f, htake⟩ := takeCause_rest (n := countEvent (eventOf code n) (settle c n)) c 2
    (byte code.number) (by exact hs)
  unfold raise handleEvent
  rw [routeEvent_fatal _ _ _ hf, localCause_stopped _ _ _ _ (by exact hs), htake]
  exact ⟨_, _, rfl⟩

end Stopped

section Repeats
variable {s : State} {m : Node} {code : FaultCode}

/-- A FATAL fault in TRIPPED or LOCKOUT, given room (R179). -/
theorem raise_stopped_room (c : Settings) (hs : m.seq.stand.stopped = true) (hf : code.cls m.seq.stand = .fatal)
    (hb : m.ring.sending.isSome = true) (hw : m.flt.raised = []) (hq : m.ring.insertQueue.length < 16) :
    raise c code m = { m with
      seq := { m.seq with stand := standAfter code.actuator m.seq.stand }
      trip := m.trip.afterCause c.station (ownOrigin c 2 (byte code.number) m)
      flt := m.flt.after c (eventOf code m)
      ring := { m.ring with
        tripSlot := slotAfter c 2 (byte code.number) m
        insertQueue := queueAfter c m.memb.ring (eventOf code m) m.flt m.ring.insertQueue } } := by
  have hroute : routeEvent c (eventOf code m) (countEvent (eventOf code m) m) = { m with
      seq := { m.seq with stand := standAfter code.actuator m.seq.stand }
      trip := m.trip.afterCause c.station (ownOrigin c 2 (byte code.number) m)
      flt := m.flt.count (eventOf code m)
      ring := { m.ring with tripSlot := slotAfter c 2 (byte code.number) m } } := by
    rw [routeEvent_fatal _ _ _ hf, localCause_stopped _ _ _ _ (by exact hs),
      takeCause_room _ _ _ (by exact hs) (by exact hb)]
    rfl
  unfold raise handleEvent
  rw [settle_none _ _ hw, hroute, reportEvent_counted c (by rfl) hw rfl (by exact hb) (by exact hq),
    settle_none _ _ rfl]

/-- A FATAL fault in TRIPPED or LOCKOUT, raised at a node whose transmit side is still untouched. -/
theorem repeatsFault_raise (hs : m.seq.stand.stopped = true) (hf : code.cls m.seq.stand = .fatal)
    (hr : m.ring = s.node.ring) (hx : m.flt = s.node.flt) :
    s.repeatsFault code m (s.withNode (finish s.settings (raise s.settings code m))) := by
  obtain ⟨r, f, hraise⟩ := raise_stopped s.settings code hs hf
  refine ⟨congrArg Node.trip hraise, fun ⟨hb, hw, hq⟩ => ?_⟩
  rw [← hr] at hb hq
  rw [← hx] at hw
  rw [raise_stopped_room _ hs hf hb hw (Nat.lt_of_succ_le hq), finish_quiet _ _ (by exact hb) rfl, ← hx, ← hr]
  exact ⟨rfl, rfl⟩

end Repeats

/-! ## The loop (R162, R172) -/

section Loop
variable {s : State} {m : Node} (c : Settings)

/-- Trip entry answers an aborted PRESET, where the ring state admits it, and offers nothing else (R53, R167). -/
theorem enterTripped_sent (hr : m.ring = s.node.ring) (hx : m.flt = s.node.flt)
    (hroom : s.roomFor (abortReplies m).length) : s.sent (abortReplies m) (enterTripped c m) := by
  obtain ⟨hb, hw, hq⟩ := hroom
  rw [← hr] at hb hq
  by_cases ha : m.memb.ring.admits .reply = true
  · have hframes : abortReplies m = abortedPreset m := if_pos ha
    rw [hframes] at hq ⊢
    rw [enterTripped, abortPreset_room c _ (by exact hb) (by exact hq) (by exact ha)]
    exact ⟨hx, by rw [← hr]; rfl⟩
  · have hframes : abortReplies m = [] := if_neg ha
    have hquiet : enterTripped c m = { enterTrippedQuietly c m with
        dir := { m.dir with table := m.dir.table.eraseP isPreset } } := by
      rw [enterTripped, ← enterTrippedQuietly_dir c m, ← abortPreset_dir c]
      unfold abortPreset endEntryDeferred
      split
      next => rfl
      next e he =>
        have hno : (enterTrippedQuietly c m).memb.ring.admits .reply = false := Bool.eq_false_iff.mpr ha
        simp only [offer, Rep.offer, RingPort.place, ctxOf, replyFrame, hno, Bool.not_false, if_true]
    rw [hframes, hquiet]
    exact State.sent_nil hr hx

/-- The unknown origin recorded (R162). -/
def Node.loopRecorded (n : Node) : Node := { n with trip := { n.trip with active := some Origin.unknown } }

theorem loopOpenActs_unmoved {n : Node}
    (h : n.seq.stand = .starting ∨ n.seq.stand = .lockout ∨ n.trip.active.isSome = true) :
    loopOpenActs c n = n := by
  unfold loopOpenActs
  split
  next => rfl
  next => rfl
  next hs hl =>
    obtain h | h | h := h
    · exact absurd h hs
    · exact absurd h hl
    · exact if_pos h

theorem loopOpenActs_records {n : Node} (hs : n.seq.stand ≠ .starting) (hl : n.seq.stand ≠ .lockout)
    (ha : n.trip.active = none) : loopOpenActs c n = enterTrippedIfNot c n.loopRecorded := by
  unfold loopOpenActs
  split
  next h => exact absurd h hs
  next h => exact absurd h hl
  next => exact if_neg (by rw [ha]; exact Bool.false_ne_true)

theorem loopOpenActs_tripped {n : Node} (hs : n.seq.stand = .tripped) (ha : n.trip.active = none) :
    loopOpenActs c n = n.loopRecorded := by
  rw [loopOpenActs_records c (by rw [hs]; exact StandState.noConfusion) (by rw [hs]; exact StandState.noConfusion)
    ha, enterTrippedIfNot]
  exact if_pos (stopped_of_tripped (by exact hs))

theorem loopOpenActs_untripped {n : Node} (hu : n.untripped) :
    loopOpenActs c n = enterTripped c n.loopRecorded := by
  have hlock : n.seq.stand ≠ .lockout := by
    intro h
    have := hu.notStopped
    rw [h] at this
    cases this
  rw [loopOpenActs_records c hu.notStarting hlock hu.2.2.1, enterTrippedIfNot]
  exact if_neg (by rw [show n.loopRecorded.seq.stand.stopped = false from hu.notStopped]; exact Bool.false_ne_true)

/-- The loop found open in a stand before a trip (R162, R167). -/
theorem loopOpenActs_trips {n : Node} (hu : n.untripped) : n.tripsTo c (loopOpenActs c n) ∧
    (loopOpenActs c n).trip = { n.trip with
      active := some Origin.unknown, tripEntries := satInc n.trip.tripEntries } := by
  rw [loopOpenActs_untripped c hu, enterTripped_trip]
  exact ⟨enterTripped_tripsTo c n.loopRecorded, rfl⟩

/-- Entry to QUIET from TRIPPED, SERVO_FLT not asserted: supervision starts anew at the standby gap (R110, R147,
R148). -/
theorem enterQuiet_unfaulted {n : Node} (hf : n.pins.servoFlt = false) :
    enterQuiet c n = enterQuietQuietly c n := if_neg (by simp [hf])

theorem enterQuietQuietly_gap {n : Node} (hs : n.seq.stand = .tripped) (hf : n.pins.servoFlt = false) :
    ∃ v x y z, (enterQuietQuietly c n).gap = { n.gap with
      base := some c.config.standbyGap, ff := 0, monitor := 0, profileTrim := 0, clampMark := false
      waiting := none, servoEn := true, reference := c.config.standbyGap, supervision := v, target := x, timer := y
      moves := z } := by
  have hgap : (enterQuietQuietly c n).gap = ({ n.gap with
      base := some c.config.standbyGap, ff := 0, monitor := 0, profileTrim := 0, clampMark := false
      waiting := none, supervision := .idle, timer := none, servoEn := true } : GapControl).placed c.config
      c.config.standbyGap := by
    rw [← refer_eq_placed]
    simp only [enterQuietQuietly, GapControl.enterQuiet, hs, hf, decide_true, if_true, Bool.not_false, Bool.or_true]
  obtain ⟨v, x, y, z, hplaced⟩ := placed_rest c.config c.config.standbyGap { n.gap with
    base := some c.config.standbyGap, ff := 0, monitor := 0, profileTrim := 0, clampMark := false
    waiting := none, supervision := .idle, timer := none, servoEn := true }
  exact ⟨v, x, y, z, hgap.trans hplaced⟩

theorem enterQuiet_pins (n : Node) : (enterQuiet c n).pins = n.pins := by
  unfold enterQuiet
  split
  · exact (raise_kept c _ .servoFault).2.1
  · rfl

end Loop

/-- The loop's closing lets the stand leave TRIPPED (R162, R172). -/
def Node.leavesOnClosing (n : Node) : Bool :=
  !n.pins.loopClosed && n.seq.stand = .tripped && n.trip.active.isNone && n.trip.pending.isNone &&
    n.trip.dropped = 0 && n.gap.supervision = .retracted

/-- The node with the loop sensed closed. -/
def Node.loopShut (n : Node) : Node := n.withPins { n.pins with loopClosed := true }

theorem exec_loopClosing {s : State} (hl : s.live) : exec .loopClosing s = .next (s.withNode (finish s.settings
    (if s.node.leavesOnClosing then enterQuiet s.settings s.node.loopShut else s.node.loopShut))) := by
  have hexec : exec .loopClosing s = s.input { s.node.pins with loopClosed := true }
    (fun c p n => if p.loopClosed then n else judgeTripExit c n) := rfl
  have hleaves : s.node.leavesOnClosing = (!s.node.pins.loopClosed && s.node.loopShut.mayLeaveTripped) := by
    simp only [Node.leavesOnClosing, Node.mayLeaveTripped, Node.loopShut, Node.withPins, Bool.and_true, Bool.and_assoc]
    rfl
  rw [hexec, State.input_live s _ _ hl, hleaves]
  unfold judgeTripExit
  cases s.node.pins.loopClosed with
  | true => rfl
  | false => rfl

/-- Settles O60: by whether the stand may leave TRIPPED; the entry to QUIET trips again where SERVO_FLT stands. -/
theorem loopClosingEndsTrip : Obligations.LoopClosingEndsTrip := by
  intro s hl n exits
  have hpins : (if exits then enterQuiet s.settings s.node.loopShut else s.node.loopShut).pins =
      { n.pins with loopClosed := true } := by
    split
    next => exact enterQuiet_pins s.settings s.node.loopShut
    next => rfl
  refine ⟨_, exec_loopClosing hl, rfl, rfl, rfl, hpins, fun hno => ?_, fun hyes hf => ?_, fun hyes hf => ?_⟩
  · rw [show s.node.leavesOnClosing = false from hno]
    exact acted_quietly (Node.keepsBut_of_overlay rfl)
  · have hs : n.seq.stand = .tripped := by
      simp only [exits, Bool.and_eq_true, decide_eq_true_eq] at hyes
      exact hyes.1.1.1.1.2
    rw [show s.node.leavesOnClosing = true from hyes, if_pos rfl, enterQuiet_unfaulted _ (by exact hf)]
    obtain ⟨v, x, y, z, hgap⟩ := enterQuietQuietly_gap s.settings (n := s.node.loopShut) hs hf
    rw [withNode_node, finish_gap, hgap]
    exact ⟨rfl, rfl, rfl, rfl, rfl, rfl, rfl, rfl, rfl, rfl, acted_quietly (Node.keepsBut_of_overlay rfl)⟩
  · have hstand := hyes
    simp only [exits, Bool.and_eq_true, decide_eq_true_eq, Option.isNone_iff_eq_none] at hstand
    obtain ⟨⟨⟨⟨⟨_, hs⟩, hactive⟩, hpending⟩, _⟩, _⟩ := hstand
    have hu : (enterQuietQuietly s.settings s.node.loopShut).untripped :=
      ⟨StandState.noConfusion, rfl, hactive, hpending⟩
    have htrips := raise_tripsOn s.settings _ .servoFault hu (.inl rfl)
    have hraise : enterQuiet s.settings s.node.loopShut =
        raise s.settings .servoFault (enterQuietQuietly s.settings s.node.loopShut) :=
      if_pos (by simp [Node.loopShut, Node.withPins, show s.node.seq.stand = .tripped from hs,
        show s.node.pins.servoFlt = true from hf])
    rw [show s.node.leavesOnClosing = true from hyes, if_pos rfl, hraise]
    obtain ⟨⟨hseq, _⟩, htrip, _⟩ := htrips
    exact ⟨congrArg Sequencer.stand hseq, congrArg TripUnit.active htrip⟩

end Sys2Proof.Machine
end

section
/-! SUPPORT. The rows of the inputs (R148, R160 to R163) and of the conditions that stand at start-up (R192). -/

namespace Sys2Proof.Machine

set_option Elab.async false

variable {s : State}

/-! ## Trip lines -/

section Line
variable (c : Settings) {k : Fin 4} {level : Bool} {n : Node}

theorem conditionOccurs_iff {l : LineConfig} : conditionOccurs l level = true ↔
    (match l.sense with
     | .rising | .high => level = true
     | .falling | .low => level = false) := by
  unfold conditionOccurs
  cases l.sense with
  | rising => exact Iff.rfl
  | high => exact Iff.rfl
  | falling => exact Bool.not_eq_true' level ▸ Iff.rfl
  | low => exact Bool.not_eq_true' level ▸ Iff.rfl

/-- The node with a trip line's flag set (R160). -/
def Node.flagged (k : Fin 4) (n : Node) : Node := putLine k { getFour n.trip.lines k with flag := true } n

theorem lineChanged_starting (hs : n.seq.stand = .starting) :
    lineChanged c k level n = putLine k ((getFour n.trip.lines k).seen level) n := if_pos hs

theorem lineChanged_apart (hs : n.seq.stand ≠ .starting)
    (ho : ¬ conditionOccurs (getFour c.config.lines k) level = true) : lineChanged c k level n = n := by
  rw [lineChanged, if_neg hs, if_neg ho]

theorem lineChanged_flags (hs : n.seq.stand ≠ .starting)
    (ho : conditionOccurs (getFour c.config.lines k) level = true)
    (hno : (getFour c.config.lines k).enabled = false ∨ (getFour n.trip.lines k).flag = true) :
    lineChanged c k level n = n.flagged k := by
  rw [lineChanged, if_neg hs, if_pos ho]
  refine if_neg ?_
  obtain h | h := hno
  · rw [h]; exact Bool.false_ne_true
  · rw [h, Bool.not_true, Bool.and_false]; exact Bool.false_ne_true

theorem lineChanged_causes (hs : n.seq.stand ≠ .starting)
    (ho : conditionOccurs (getFour c.config.lines k) level = true)
    (he : (getFour c.config.lines k).enabled = true) (hf : (getFour n.trip.lines k).flag = false) :
    lineChanged c k level n = localCause c 1 (byte k.val) false (n.flagged k) := by
  rw [lineChanged, if_neg hs, if_pos ho]
  refine if_pos ?_
  rw [he, hf]
  rfl

theorem lineChanged_pins : (lineChanged c k level n).pins = n.pins := by
  unfold lineChanged lineOccurs
  split
  · rfl
  · split
    · dsimp only
      split
      · exact (localCause_kept c (putLine k { getFour n.trip.lines k with flag := true } n) _ _ _).2.1
      · rfl
    · rfl

theorem exec_tripLineChange (hl : s.live) : exec (.tripLineChange k level) s =
    .next (s.withNode (finish s.settings (if getFour s.node.pins.lines k = level
      then s.node.withPins (s.node.pins.putLine k level)
      else lineChanged s.settings k level (s.node.withPins (s.node.pins.putLine k level))))) := by
  have hexec : exec (.tripLineChange k level) s = s.input (s.node.pins.putLine k level)
    (fun c p n => if getFour p.lines k = level then n else lineChanged c k level n) := rfl
  rw [hexec, State.input_live s _ _ hl]

end Line

/-- O59, the trip lines: by whether the level changes, the stand state, the condition, and the own origin. -/
theorem tripLineChange_acts (k : Fin 4) (level : Bool) (s : State) (hl : s.live) :
    let n := s.node
    let l := getFour n.trip.lines k
    let cfg := getFour s.settings.config.lines k
    let pins := { n.pins with lines := setFour n.pins.lines k level }
    let same : Prop := getFour n.pins.lines k = level
    let occurs : Prop := match cfg.sense with
      | .rising | .high => level = true
      | .falling | .low => level = false
    let flagged : TripUnit := { n.trip with lines := setFour n.trip.lines k { l with flag := true } }
    ∃ t, exec (.tripLineChange k level) s = .next t ∧ t.node.pins = pins ∧
      (same → s.keepsBut [.pins, .ring, .flt] t ∧ s.offers [] t) ∧
      (¬ same → n.seq.stand = .starting →
        t.node.trip = { n.trip with
          lines := setFour n.trip.lines k
            (if level then { l with seenRise := true, seenHigh := true }
             else { l with seenFall := true, seenLow := true }) } ∧
        s.keepsBut [.pins, .trip, .ring, .flt] t ∧ s.offers [] t) ∧
      (¬ same → n.seq.stand ≠ .starting → ¬ occurs → s.keepsBut [.pins, .ring, .flt] t ∧ s.offers [] t) ∧
      (¬ same → n.seq.stand ≠ .starting → occurs → cfg.enabled = false ∨ l.flag = true →
        t.node.trip = flagged ∧ s.keepsBut [.pins, .trip, .ring, .flt] t ∧ s.offers [] t) ∧
      (¬ same → occurs → cfg.enabled = true → l.flag = false → n.untripped →
        { n with pins := pins, trip := flagged }.tripsOn s.settings 1 (byte k.val) t.node ∧
        t.settings = s.settings ∧ t.paramMem = s.paramMem ∧ t.pending = s.pending ∧
        (s.roomFor 1 → t.node.flt = n.flt ∧ t.node.ring = { n.ring with
          tripSlot := some (causeFrame s.settings 1 (byte k.val) n)
          insertQueue := n.ring.insertQueue ++ abortReplies n })) ∧
      (¬ same → occurs → cfg.enabled = true → l.flag = false → n.seq.stand.stopped = true →
        n.trip.recorded s.settings.station = true →
        t.node.trip = { flagged with localRepeats := satInc n.trip.localRepeats } ∧
        s.keepsBut [.pins, .trip, .ring, .flt] t ∧ s.offers [] t) ∧
      (¬ same → occurs → cfg.enabled = true → l.flag = false → n.seq.stand.stopped = true →
        n.trip.recorded s.settings.station = false →
        t.node.trip =
          flagged.afterCause s.settings.station (ownOrigin s.settings 1 (byte k.val) n) ∧
        s.keepsBut [.pins, .trip, .ring, .flt] t ∧
        (s.roomFor 0 → t.node.flt = n.flt ∧
          t.node.ring = { n.ring with tripSlot := slotAfter s.settings 1 (byte k.val) n })) := by
  intro n l cfg pins same occurs flagged
  have hocc : occurs ↔ conditionOccurs cfg level = true := conditionOccurs_iff.symm
  have hnot : n.seq.stand.stopped = true → n.seq.stand ≠ .starting := by
    intro hs h
    rw [h] at hs
    cases hs
  have hkeep : ((if getFour s.node.pins.lines k = level then s.node.withPins (s.node.pins.putLine k level)
      else lineChanged s.settings k level (s.node.withPins (s.node.pins.putLine k level))).pins = pins) := by
    split
    · rfl
    · exact lineChanged_pins s.settings
  refine ⟨_, exec_tripLineChange hl, hkeep, fun hsame => ?_, fun hsame hs => ?_, fun hsame hs ho => ?_,
    fun hsame hs ho hno => ?_, fun hsame ho he hf hu => ?_, fun hsame ho he hf hs hr => ?_,
    fun hsame ho he hf hs hr => ?_⟩
  · rw [if_pos hsame]
    exact acted_quietly (Node.keepsBut_of_overlay rfl)
  · rw [if_neg hsame, lineChanged_starting _ (by exact hs)]
    exact ⟨rfl, acted_quietly (Node.keepsBut_of_overlay rfl)⟩
  · rw [if_neg hsame, lineChanged_apart _ (by exact hs) (mt hocc.mpr ho)]
    exact acted_quietly (Node.keepsBut_of_overlay rfl)
  · rw [if_neg hsame, lineChanged_flags _ (by exact hs) (hocc.mp ho) (by exact hno)]
    exact ⟨rfl, acted_quietly (Node.keepsBut_of_overlay rfl)⟩
  · rw [if_neg hsame, lineChanged_causes _ (by exact hu.notStarting) (hocc.mp ho) he (by exact hf)]
    exact ⟨localCause_tripsOn s.settings { n with pins := pins, trip := flagged } 1 (byte k.val) false hu, rfl,
      rfl, rfl, fun hroom => localCause_offers (m := { n with pins := pins, trip := flagged }) hu rfl rfl hroom⟩
  · rw [if_neg hsame, lineChanged_causes _ (by exact hnot hs) (hocc.mp ho) he (by exact hf)]
    have hrepeat : localCause s.settings 1 (byte k.val) false
        ((s.node.withPins (s.node.pins.putLine k level)).flagged k) =
        { n with pins := pins, trip := { flagged with localRepeats := satInc n.trip.localRepeats } } := by
      rw [localCause_stopped _ _ _ _ (by exact hs), takeCause_stopped _ _ _ _ (by exact hs)]
      refine congrArg (fun x : Node => ({ x with seq := n.seq } : Node)) (if_pos (by exact hr))
    rw [hrepeat]
    exact ⟨rfl, acted_quietly (Node.keepsBut_of_overlay rfl)⟩
  · rw [if_neg hsame, lineChanged_causes _ (by exact hnot hs) (hocc.mp ho) he (by exact hf)]
    obtain ⟨r, f, hcause⟩ := localCause_stopped_rest s.settings 1 (byte k.val)
      (n := (s.node.withPins (s.node.pins.putLine k level)).flagged k) hs
    refine ⟨congrArg Node.trip hcause, keepsBut_finish ?_ (by decide) (by decide), fun hroom => ?_⟩
    · rw [hcause]
      exact Node.keepsBut_of_overlay rfl
    · rw [localCause_stopped_room _ _ _ (by exact hs) (by exact hroom.1), withNode_node,
        finish_quiet _ _ (by exact hroom.1) (by exact hroom.2.1)]
      exact ⟨rfl, rfl⟩

/-! ## The loop found open and SERVO_FLT -/

theorem loopOpenActs_pins (c : Settings) (n : Node) : (loopOpenActs c n).pins = n.pins := by
  unfold loopOpenActs
  split
  · rfl
  · rfl
  · split
    · rfl
    · exact (enterTrippedIfNot_kept c { n with trip := { n.trip with active := some Origin.unknown } }).2.1

theorem exec_loopOpen (hl : s.live) : exec .loopOpen s = .next (s.withNode (finish s.settings
    (if s.node.pins.loopClosed then loopOpened s.settings (s.node.withPins { s.node.pins with loopClosed := false })
     else s.node.withPins { s.node.pins with loopClosed := false }))) := by
  have hexec : exec .loopOpen s = s.input { s.node.pins with loopClosed := false }
    (fun c p n => if p.loopClosed then loopOpened c n else n) := rfl
  rw [hexec, State.input_live s _ _ hl]

/-- The node with a loop-open counted. -/
def Node.loopCounted (n : Node) : Node := { n with
  pins := { n.pins with loopClosed := false }, trip := { n.trip with loopOpens := satInc n.trip.loopOpens } }

/-- O59, the loop: a loop-open is counted, before it acts by the stand state and the record. -/
theorem loopOpen_acts (s : State) (hl : s.live) :
    let n := s.node
    let counted : TripUnit := { n.trip with loopOpens := satInc n.trip.loopOpens }
    ∃ t, exec .loopOpen s = .next t ∧ t.node.pins = { n.pins with loopClosed := false } ∧
      (n.pins.loopClosed = false → s.keepsBut [.pins, .ring, .flt] t ∧ s.offers [] t) ∧
      (n.pins.loopClosed = true →
        n.seq.stand = .starting ∨ n.seq.stand = .lockout ∨ n.trip.active.isSome = true →
        t.node.trip = counted ∧ s.keepsBut [.pins, .trip, .ring, .flt] t ∧ s.offers [] t) ∧
      (n.pins.loopClosed = true → n.untripped →
        n.tripsTo s.settings t.node ∧
        t.node.trip = { counted with
          active := some { station := 0, standIndex := 0, causeKind := 0, detail := 0, number := 0 }
          tripEntries := satInc n.trip.tripEntries } ∧
        t.settings = s.settings ∧ s.offers (abortReplies n) t) ∧
      (n.pins.loopClosed = true → n.seq.stand = .tripped → n.trip.active = none →
        t.node.trip = { counted with
          active := some { station := 0, standIndex := 0, causeKind := 0, detail := 0, number := 0 } } ∧
        s.keepsBut [.pins, .trip, .ring, .flt] t ∧ s.offers [] t) := by
  intro n counted
  have hkeep : (if s.node.pins.loopClosed then
      loopOpened s.settings (s.node.withPins { s.node.pins with loopClosed := false })
      else s.node.withPins { s.node.pins with loopClosed := false }).pins =
      { n.pins with loopClosed := false } := by
    split
    · exact loopOpenActs_pins s.settings n.loopCounted
    · rfl
  have hopen : n.pins.loopClosed = true →
      (if s.node.pins.loopClosed then
        loopOpened s.settings (s.node.withPins { s.node.pins with loopClosed := false })
        else s.node.withPins { s.node.pins with loopClosed := false }) = loopOpenActs s.settings n.loopCounted :=
    fun h => if_pos h
  refine ⟨_, exec_loopOpen hl, hkeep, fun hp => ?_, fun hp hno => ?_, fun hp hu => ?_, fun hp hs ha => ?_⟩
  · rw [if_neg (by rw [hp]; exact Bool.false_ne_true)]
    exact acted_quietly (Node.keepsBut_of_overlay rfl)
  · rw [hopen hp, loopOpenActs_unmoved _ (by exact hno)]
    exact ⟨rfl, acted_quietly (Node.keepsBut_of_overlay rfl)⟩
  · rw [hopen hp]
    obtain ⟨hto, htrip⟩ := loopOpenActs_trips s.settings (n := n.loopCounted) hu
    refine ⟨hto, htrip, rfl, offers_of_sent fun hroom => ?_⟩
    rw [loopOpenActs_untripped _ (by exact hu)]
    exact enterTripped_sent (m := n.loopCounted.loopRecorded) _ rfl rfl hroom
  · rw [hopen hp, loopOpenActs_tripped _ (by exact hs) (by exact ha)]
    exact ⟨rfl, acted_quietly (Node.keepsBut_of_overlay rfl)⟩

theorem exec_servoFlt {asserted : Bool} (hl : s.live) : exec (.servoFlt asserted) s =
    .next (s.withNode (finish s.settings (if asserted && !s.node.pins.servoFlt
      then servoFails s.settings (s.node.withPins { s.node.pins with servoFlt := asserted })
      else s.node.withPins { s.node.pins with servoFlt := asserted }))) := by
  have hexec : exec (.servoFlt asserted) s = s.input { s.node.pins with servoFlt := asserted }
    (fun c p n => if asserted && !p.servoFlt then servoFails c n else n) := rfl
  rw [hexec, State.input_live s _ _ hl]

theorem servoFails_raises (c : Settings) {n : Node} (hs : n.seq.stand ≠ .starting) :
    servoFails c n = raise c .servoFault { n with gap := { n.gap with servoEn := false } } := if_neg hs

theorem servoFails_pins (c : Settings) (n : Node) : (servoFails c n).pins = n.pins := by
  unfold servoFails
  split
  · rfl
  · exact (raise_kept c { n with gap := { n.gap with servoEn := false } } .servoFault).2.1

/-- Settles O59: the trip lines, the loop found open, and SERVO_FLT. -/
theorem inputLinesTripStand : Obligations.InputLinesTripStand := by
  refine ⟨tripLineChange_acts, loopOpen_acts, ?_⟩
  intro asserted s hl n pins
  have hkeep : (if asserted && !s.node.pins.servoFlt then
      servoFails s.settings (s.node.withPins { s.node.pins with servoFlt := asserted })
      else s.node.withPins { s.node.pins with servoFlt := asserted }).pins = pins := by
    split
    · exact servoFails_pins s.settings _
    · rfl
  have hfails : asserted = true → n.pins.servoFlt = false → (asserted && !s.node.pins.servoFlt) = true := by
    intro ha hp
    rw [ha, show s.node.pins.servoFlt = false from hp]
    rfl
  refine ⟨_, exec_servoFlt hl, hkeep, fun hno => ?_, fun ha hp hu => ?_, fun ha hp hs => ?_⟩
  · have hsame : (if asserted && !s.node.pins.servoFlt then
        servoFails s.settings (s.node.withPins { s.node.pins with servoFlt := asserted })
        else s.node.withPins { s.node.pins with servoFlt := asserted }) =
        s.node.withPins { s.node.pins with servoFlt := asserted } := by
      obtain ha | hp | hs := hno
      · rw [ha]; rfl
      · exact if_neg (by rw [show s.node.pins.servoFlt = true from hp, Bool.not_true, Bool.and_false]; exact Bool.false_ne_true)
      · split
        · exact if_pos (by exact hs)
        · rfl
    rw [hsame]
    exact acted_quietly (Node.keepsBut_of_overlay rfl)
  · rw [if_pos (hfails ha hp), servoFails_raises _ (by exact hu.notStarting)]
    exact tripsByFault_raise (m := { n with pins := pins, gap := { n.gap with servoEn := false } }) hu (.inl rfl) rfl rfl
  · have hstop : n.seq.stand.stopped = true := stopped_of_tripped hs
    rw [if_pos (hfails ha hp), servoFails_raises _ (by
      rw [show (s.node.withPins { s.node.pins with servoFlt := asserted }).seq.stand = .tripped from hs]
      exact StandState.noConfusion)]
    obtain ⟨r, f, hraise⟩ := raise_stopped s.settings .servoFault
      (n := { n with pins := pins, gap := { n.gap with servoEn := false } }) hstop rfl
    have hlock : standAfter FaultCode.servoFault.actuator n.seq.stand = .lockout := by rw [hs]; rfl
    refine ⟨(congrArg Node.seq hraise).trans (congrArg (fun x => ({ n.seq with stand := x } : Sequencer)) hlock),
      congrArg Node.gap hraise, keepsBut_finish ?_ (by decide) (by decide)⟩
    change s.node.keepsBut _
      (raise s.settings .servoFault { n with pins := pins, gap := { n.gap with servoEn := false } })
    rw [hraise]
    exact Node.keepsBut_of_overlay rfl

end Sys2Proof.Machine
end

section
/-! SUPPORT. The conditions that stand at start-up (R192): what each makes of a stand before a trip, and of one that has
tripped. -/

namespace Sys2Proof.Machine

set_option Elab.async false

variable {s : State} (c : Settings) {k : Standing}

/-- The node with a standing condition taken from the list. -/
def Node.without (k : Standing) (n : Node) : Node :=
  { n with startup := { n.startup with standing := n.startup.standing.erase k } }

theorem takeStanding_absent {n : Node} (h : n.startup.standing.contains k = false) : takeStanding c k n = n :=
  if_neg (by rw [h]; exact Bool.false_ne_true)

theorem takeStanding_present {n : Node} (h : n.startup.standing.contains k = true) :
    takeStanding c k n = standingActs c k (n.without k) := if_pos h

theorem exec_standingCondition (hl : s.live) : exec (.standingCondition k) s =
    .next (s.withNode (finish s.settings (takeStanding s.settings k s.node))) := by
  have hexec : exec (.standingCondition k) s = s.act (fun c n => takeStanding c k n) := rfl
  rw [hexec, State.act_live _ _ hl]

theorem loadOnEvent_unexpected {n : Node} (hs : n.seq.stand = .quiet ∨ n.seq.stand = .preset) :
    loadOnEvent c n = raise c .unexpectedLoad n := by
  obtain hs | hs := hs <;> simp only [loadOnEvent, hs]

theorem loadOnEvent_tripped {n : Node} (hs : n.seq.stand = .tripped) : loadOnEvent c n = n := by
  simp only [loadOnEvent, hs]

/-- An actuator fault of a standing condition in TRIPPED locks the stand out (R174, R192). -/
theorem standing_locks {code : FaultCode} (hs : s.node.seq.stand = .tripped) (ha : code.actuator = true)
    (hf : code.cls s.node.seq.stand = .fatal) :
    let n := s.node.without k
    let t := s.withNode (finish s.settings (raise s.settings code n))
    t.node.startup = n.startup ∧ t.node.seq = { n.seq with stand := .lockout } ∧ s.repeatsFault code n t ∧
      s.keepsBut [.startup, .seq, .trip, .ring, .flt] t := by
  intro n t
  obtain ⟨r, f, hraise⟩ := raise_stopped (n := n) s.settings code (stopped_of_tripped hs) hf
  have hlock : standAfter code.actuator n.seq.stand = .lockout := by rw [ha, show n.seq.stand = .tripped from hs]; rfl
  rw [hlock] at hraise
  refine ⟨(congrArg Node.startup hraise).trans rfl, (congrArg Node.seq hraise).trans rfl,
    repeatsFault_raise (stopped_of_tripped hs) hf rfl rfl, keepsBut_finish ?_ (by decide) (by decide)⟩
  rw [hraise]
  exact Node.keepsBut_of_overlay rfl

/-- Settles O21: by the condition, in a stand before a trip and in TRIPPED. -/
theorem standingConditionsAct : Obligations.StandingConditionsAct := by
  intro k s hl n
  refine ⟨fun habsent => ?_, fun hpresent hu => ?_, fun hpresent hs => ?_⟩
  · refine ⟨_, exec_standingCondition hl, ?_⟩
    rw [takeStanding_absent _ habsent]
    exact acted_quietly (Node.keepsBut_of_overlay rfl)
  · refine ⟨_, exec_standingCondition hl, rfl, rfl, rfl, ?_⟩
    rw [takeStanding_present _ hpresent]
    cases k with
    | line i => exact localCause_tripsOn s.settings n 1 (byte i.val) false hu
    | load =>
      intro hs
      rw [standingActs, loadOnEvent_unexpected _ (by exact hs)]
      exact tripsByFault_raise hu (.inl rfl) rfl rfl
    | servo => exact tripsByFault_raise (m := n) hu (.inl rfl) rfl rfl
    | position side => exact tripsByFault_raise (m := n) hu (.inl rfl) rfl rfl
    | loopSensedOpen =>
      dsimp only
      rw [standingActs]
      split
      next hp =>
        rw [if_pos (by exact hp)]
        exact ⟨rfl, keepsBut_finish (Node.keepsBut_of_overlay rfl) (by decide) (by decide)⟩
      next hp =>
        rw [if_neg (by exact hp)]
        exact loopOpenActs_trips s.settings (n := n) hu
  · refine ⟨_, exec_standingCondition hl, ?_⟩
    rw [takeStanding_present _ hpresent]
    have hstop : n.seq.stand.stopped = true := stopped_of_tripped hs
    cases k with
    | line i =>
      obtain ⟨r, f, hcause⟩ := localCause_stopped_rest (n := n) s.settings 1 (byte i.val) hstop
      refine ⟨(congrArg Node.startup hcause).trans rfl, (congrArg Node.trip hcause).trans rfl, keepsBut_finish ?_ (by decide) (by decide),
        fun hroom => ?_⟩
      · change s.node.keepsBut _ (localCause s.settings 1 (byte i.val) false n)
        rw [hcause]
        exact Node.keepsBut_of_overlay rfl
      · have hcause := localCause_stopped_room (n := n) s.settings 1 (byte i.val) hstop hroom.1
        change (finish s.settings (localCause s.settings 1 (byte i.val) false n)).flt = _ ∧
          (finish s.settings (localCause s.settings 1 (byte i.val) false n)).ring = _
        rw [hcause, finish_quiet _ _ (by exact hroom.1) (by exact hroom.2.1)]
        exact ⟨rfl, rfl⟩
    | load =>
      rw [standingActs, loadOnEvent_tripped _ (by exact hs)]
      exact ⟨rfl, acted_quietly (Node.keepsBut_of_overlay rfl)⟩
    | servo => exact standing_locks hs rfl rfl
    | position side => exact standing_locks hs rfl rfl
    | loopSensedOpen =>
      by_cases hp : n.pins.loopClosed = true
      · have hacts : standingActs s.settings .loopSensedOpen n = n := if_pos hp
        change _ ∧ _
        rw [show s.node.without .loopSensedOpen = n from rfl, hacts]
        exact ⟨rfl, (if_pos (.inl hp)).symm, acted_quietly (Node.keepsBut_of_overlay rfl)⟩
      · have hacts : standingActs s.settings .loopSensedOpen n = loopOpenActs s.settings n := if_neg hp
        rw [show s.node.without .loopSensedOpen = n from rfl, hacts]
        by_cases hactive : n.trip.active.isSome = true
        · rw [loopOpenActs_unmoved _ (.inr (.inr hactive))]
          exact ⟨rfl, (if_pos (.inr hactive)).symm, acted_quietly (Node.keepsBut_of_overlay rfl)⟩
        · rw [loopOpenActs_tripped (n := n) _ hs (by simpa using hactive)]
          exact ⟨rfl, (if_neg (not_or.mpr ⟨hp, hactive⟩)).symm, acted_quietly (Node.keepsBut_of_overlay rfl)⟩

end Sys2Proof.Machine
end

section
/-! SUPPORT. TRIP_CLEAR (R168 to R172): the origins retired, the lines set again and taken as local repeats, and the exit
from TRIPPED. -/

namespace Sys2Proof.Machine

set_option Elab.async false

/-! ## The origin record -/

section Record
variable {t : TripUnit} (gone gone' : Origin → Bool)

/-- The origins recorded, the active one first. -/
def TripUnit.origins (t : TripUnit) : List Origin := t.active.toList ++ t.pending.toList

theorem retire_eq : t.retire gone = { t with
    active := (t.origins.filter fun o => !gone o)[0]?, pending := (t.origins.filter fun o => !gone o)[1]? } := by
  have hfilter : t.origins.filter (fun o => !gone o) =
      (t.active.filter fun o => !gone o).toList ++ (t.pending.filter fun o => !gone o).toList := by
    rw [TripUnit.origins, List.filter_append, Option.toList_filter, Option.toList_filter]
  rw [hfilter]
  unfold TripUnit.retire
  cases t.active.filter fun o => !gone o with
  | some a => cases t.pending.filter fun o => !gone o <;> rfl
  | none => cases t.pending.filter fun o => !gone o <;> rfl

theorem origins_retire : (t.retire gone).origins = t.origins.filter fun o => !gone o := by
  have hshort : (t.origins.filter fun o => !gone o).length ≤ 2 := by
    refine (List.length_filter_le _ _).trans ?_
    unfold TripUnit.origins
    cases t.active <;> cases t.pending <;> simp
  rw [retire_eq]
  match hlist : t.origins.filter (fun o => !gone o) with
  | [] => rfl
  | [a] => rfl
  | [a, b] => rfl
  | a :: b :: d :: l =>
    rw [hlist] at hshort
    simp only [List.length_cons] at hshort
    omega

theorem retire_retire : (t.retire gone).retire gone' = t.retire fun o => gone o || gone' o := by
  rw [retire_eq gone', origins_retire, List.filter_filter, retire_eq gone, retire_eq]
  simp only [Bool.not_or, Bool.and_comm]

theorem retire_putDropped (d : Nat) : ({ t with dropped := d } : TripUnit).retire gone =
    { t.retire gone with dropped := d } := by
  rw [retire_eq, retire_eq]
  rfl

theorem recorded_iff {k : Nat} : t.recorded k = true ↔ ∃ o ∈ t.origins, o.station = k := by
  unfold TripUnit.recorded TripUnit.origins holdsStation
  cases t.active <;> cases t.pending <;> simp

end Record

/-! ## The local causes taken again (R171) -/

section Again
variable (c : Settings) {n : Node}

/-- A local cause of a node whose own origin is recorded is a local repeat (R163). -/
theorem localCause_recorded (kind detail : Byte) (hs : n.seq.stand ≠ .starting)
    (hr : n.trip.recorded c.station = true) : localCause c kind detail false n =
      { n with trip := { n.trip with localRepeats := satInc n.trip.localRepeats } } := by
  rw [localCause, if_neg hs]
  exact if_pos hr

/-- The node with local repeats counted. -/
def Node.repeated (j : Nat) (n : Node) : Node := { n with trip := { n.trip with
  localRepeats := if j = 0 then n.trip.localRepeats else satAdd n.trip.localRepeats j } }

theorem causeAgain_repeated (k : Fin 4) (j : Nat) (h : levelCauseActive c.config n.pins k = true →
    n.seq.stand ≠ .starting ∧ n.trip.recorded c.station = true) :
    causeAgain c k (n.repeated j) = n.repeated (j + if levelCauseActive c.config n.pins k then 1 else 0) := by
  unfold causeAgain
  by_cases ha : levelCauseActive c.config n.pins k = true
  · obtain ⟨hs, hr⟩ := h ha
    have hsum : satInc (if j = 0 then n.trip.localRepeats else satAdd n.trip.localRepeats j) =
        if j + 1 = 0 then n.trip.localRepeats else satAdd n.trip.localRepeats (j + 1) := by
      rw [if_neg (Nat.succ_ne_zero j)]
      unfold satInc satAdd
      split <;> omega
    rw [if_pos (by exact ha), if_pos ha, localCause_recorded c _ _ (by exact hs) (by exact hr)]
    exact congrArg (fun x => ({ n with trip := { n.trip with localRepeats := x } } : Node)) hsum
  · rw [if_neg (by exact ha), if_neg ha, Nat.add_zero]

/-- The lines that are active local causes. -/
def levelCauses (c : Settings) (n : Node) : Nat := (List.finRange 4).countP (levelCauseActive c.config n.pins)

theorem levelCauses_none (h : anyLevelCause c.config n.pins = false) (k : Fin 4) :
    levelCauseActive c.config n.pins k = false := by
  simp only [anyLevelCause, Bool.or_eq_false_iff] at h
  obtain ⟨⟨⟨h0, h1⟩, h2⟩, h3⟩ := h
  fin_cases k
  · exact h0
  · exact h1
  · exact h2
  · exact h3

theorem causesAgain (h : ∀ k, levelCauseActive c.config n.pins k = true →
    n.seq.stand ≠ .starting ∧ n.trip.recorded c.station = true) :
    causeAgain c 3 (causeAgain c 2 (causeAgain c 1 (causeAgain c 0 n))) = n.repeated (levelCauses c n) := by
  have hzero : n = n.repeated 0 := rfl
  have hcount : levelCauses c n = 0 + (if levelCauseActive c.config n.pins 0 then 1 else 0) +
      (if levelCauseActive c.config n.pins 1 then 1 else 0) + (if levelCauseActive c.config n.pins 2 then 1 else 0) +
      (if levelCauseActive c.config n.pins 3 then 1 else 0) := by
    have hrange : List.finRange 4 = [0, 1, 2, 3] := rfl
    simp only [levelCauses, hrange, List.countP_cons, List.countP_nil]
    omega
  conv => lhs; rw [hzero]
  rw [causeAgain_repeated c 0 _ (h 0), causeAgain_repeated c 1 _ (h 1), causeAgain_repeated c 2 _ (h 2),
    causeAgain_repeated c 3 _ (h 3), hcount]

end Again

/-! ## A clear taken (R169 to R172) -/

section Taken
variable (c : Settings) (gone : Origin → Bool) (slot : Option OwnFrame) (dropped : Nat) (n : Node)

/-- The origins that a clear retires: those it names, and the unknown one where the loop is closed. -/
def retired (n : Node) (o : Origin) : Bool := gone o || (n.pins.loopClosed && o.station = 0)

/-- The node after a clear has been taken, before the exit from TRIPPED is judged. -/
def Node.cleared : Node := { n with
  ring := { n.ring with tripSlot := slot }
  flt := n.flt.resetBudget
  trip := { n.trip.retire (retired gone n) with
    lines := (resetFlags c n).trip.lines
    dropped := dropped
    localRepeats := if levelCauses c n = 0 then n.trip.localRepeats
      else satAdd n.trip.localRepeats (levelCauses c n)
    clearsTaken := satInc n.trip.clearsTaken } }

theorem clearEffects_eq (h : ∀ k, levelCauseActive c.config n.pins k = true →
      n.seq.stand ≠ .starting ∧ (n.trip.retire (retired gone n)).recorded c.station = true) :
    clearEffects c n.pins.loopClosed { n with
        ring := { n.ring with tripSlot := slot }
        trip := { n.trip.retire gone with dropped := dropped } } =
      judgeTripExit c (n.cleared c gone slot dropped) := by
  have hretire : (if n.pins.loopClosed then { n with
        ring := { n.ring with tripSlot := slot }
        trip := ({ n.trip.retire gone with dropped := dropped } : TripUnit).retire fun o => o.station = 0 }
      else { n with
        ring := { n.ring with tripSlot := slot }
        trip := { n.trip.retire gone with dropped := dropped } } : Node) = { n with
        ring := { n.ring with tripSlot := slot }
        trip := { n.trip.retire (retired gone n) with dropped := dropped } } := by
    unfold retired
    cases n.pins.loopClosed with
    | true =>
      rw [if_pos rfl, retire_putDropped, retire_retire]
      simp only [Bool.true_and]
    | false =>
      simp only [Bool.false_eq_true, if_false, Bool.false_and, Bool.or_false]
  have hagain := causesAgain c (n := resetFlags c { n with
    ring := { n.ring with tripSlot := slot }
    trip := { n.trip.retire (retired gone n) with dropped := dropped } }) h
  unfold clearEffects
  rw [hretire]
  refine (congrArg (fun x : Node => judgeTripExit c { x with
    flt := x.flt.resetBudget, trip := { x.trip with clearsTaken := satInc x.trip.clearsTaken } }) hagain).trans ?_
  unfold Node.cleared
  rw [retire_eq]
  rfl

theorem withdrawIfOwn_eq : withdrawIfOwn c n = { n with ring := { n.ring with
    tripSlot := if n.trip.recorded c.station then none else n.ring.tripSlot } } := by
  unfold withdrawIfOwn
  split
  · rfl
  · rfl

theorem mayLeave_cleared : (n.cleared c gone slot dropped).mayLeaveTripped = (n.seq.stand = .tripped &&
    (n.trip.origins.filter fun o => !retired gone n o).isEmpty && dropped = 0 && n.pins.loopClosed &&
      n.gap.supervision = .retracted) := by
  unfold Node.cleared Node.mayLeaveTripped
  rw [retire_eq]
  cases hlist : n.trip.origins.filter (fun o => !retired gone n o) with
  | nil => simp
  | cons o os => simp

/-- What a clear that is taken retires. -/
def clearsOrigins (v : Byte) (o : Origin) : Bool := if v = 31 then o.station ≠ 0 else o.station = v.toNat

/-- A clear taken, by the station it names or to ALL. -/
theorem writeTripClear_taken {h : Header} {v : Byte} (hlock : n.seq.stand ≠ .lockout)
    (hv : v = 31 ∨ v ≠ 0 ∧ v.toNat < 31 ∧ n.trip.recorded v.toNat = true)
    (hlevel : anyLevelCause c.config n.pins = false ∨
      (v = 31 || v.toNat = c.station) = false ∧ n.trip.recorded c.station = true)
    (hs : n.seq.stand ≠ .starting) (hstation : 1 ≤ c.station ∧ c.station ≤ 30) :
    writeTripClear c h v n = answer c h 15 .done (settle c (judgeTripExit c (n.cleared c (clearsOrigins v)
      (if (v = 31 || v.toNat = c.station) && n.trip.recorded c.station then none else n.ring.tripSlot)
      (if v = 31 then 0 else n.trip.dropped)))) := by
  have hagain : ∀ k, levelCauseActive c.config n.pins k = true → n.seq.stand ≠ .starting ∧
      (n.trip.retire (retired (clearsOrigins v) n)).recorded c.station = true := by
    intro k hk
    obtain hno | ⟨hown, hheld⟩ := hlevel
    · rw [levelCauses_none c hno k] at hk
      cases hk
    · obtain ⟨o, ho, hat⟩ := recorded_iff.mp hheld
      simp only [Bool.or_eq_false_iff, decide_eq_false_iff_not] at hown
      obtain ⟨hall, hother⟩ := hown
      have hzero : c.station ≠ 0 := by omega
      refine ⟨hs, recorded_iff.mpr ⟨o, ?_, hat⟩⟩
      rw [origins_retire, List.mem_filter]
      refine ⟨ho, ?_⟩
      have hkept : retired (clearsOrigins v) n o = false := by
        simp only [retired, clearsOrigins, if_neg hall, hat, Ne.symm hother, hzero, decide_false, Bool.and_false,
          Bool.or_false]
      rw [hkept]
      rfl
  have heffects := clearEffects_eq c (clearsOrigins v)
    (if (v = 31 || v.toNat = c.station) && n.trip.recorded c.station then none else n.ring.tripSlot)
    (if v = 31 then 0 else n.trip.dropped) n hagain
  rw [← heffects]
  unfold writeTripClear
  rw [if_neg hlock]
  by_cases hall : v = 31
  · have hno : anyLevelCause c.config n.pins = false := by
      obtain hno | ⟨hown, _⟩ := hlevel
      · exact hno
      · rw [hall] at hown
        cases hown
    subst hall
    have hgone : (fun o : Origin => decide (o.station ≠ 0)) = clearsOrigins 31 := rfl
    refine (if_neg (by decide)).trans ((if_pos rfl).trans ((if_neg (by rw [hno]; exact Bool.false_ne_true)).trans ?_))
    rw [takeClearAll, withdrawIfOwn_eq, hgone]
    rfl
  · obtain h31 | ⟨hzero, hlow, hrecorded⟩ := hv
    · exact absurd h31 hall
    have hne : v.toNat ≠ 0 := fun h => hzero (BitVec.eq_of_toNat_eq h)
    have hgone : (fun o : Origin => decide (o.station = v.toNat)) = clearsOrigins v := by
      funext o
      exact (if_neg hall).symm
    have h31 : v.toNat ≠ 31 := fun h => hall (BitVec.eq_of_toNat_eq h)
    have hrange : ¬ (v.toNat = 0 || 31 < v.toNat) = true := by
      simp only [Bool.or_eq_true, decide_eq_true_eq]
      omega
    have hadmitted : ¬ (v.toNat = c.station && anyLevelCause c.config n.pins) = true := by
      obtain hno | ⟨hown, _⟩ := hlevel
      · rw [hno, Bool.and_false]
        exact Bool.false_ne_true
      · rw [Bool.or_eq_false_iff] at hown
        rw [hown.2]
        exact Bool.false_ne_true
    refine (if_neg hrange).trans ((if_neg h31).trans ((if_neg (by rw [hrecorded]; exact Bool.false_ne_true)).trans
      ((if_neg hadmitted).trans ?_)))
    rw [takeClearOf, withdrawIfOwn_eq, hgone, if_neg hall]
    by_cases hown : v.toNat = c.station
    · have hslot : (v = 31 || v.toNat = c.station) = true := by rw [decide_eq_true hown, Bool.or_true]
      rw [if_pos hown, hslot, Bool.true_and, retire_eq]
    · have hslot : (v = 31 || v.toNat = c.station) = false := by
        rw [decide_eq_false hown, decide_eq_false hall, Bool.or_false]
      rw [if_neg hown, hslot, Bool.false_and, retire_eq]
      rfl

/-- The node after a clear: in QUIET where the stand leaves TRIPPED (R172). -/
def Node.leftTripped (exits : Bool) : Node :=
  if exits then enterQuietQuietly c (n.cleared c gone slot dropped) else n.cleared c gone slot dropped

/-- The exit from TRIPPED leaves the Trip Unit, the transmit side and the ring state as the clear leaves them. -/
theorem leftTripped_kept (exits : Bool) :
    (n.leftTripped c gone slot dropped exits).trip = (n.cleared c gone slot dropped).trip ∧
    (n.leftTripped c gone slot dropped exits).ring = { n.ring with tripSlot := slot } ∧
    (n.leftTripped c gone slot dropped exits).flt = n.flt.resetBudget ∧
    (n.leftTripped c gone slot dropped exits).memb.ring = n.memb.ring := by
  unfold Node.leftTripped
  cases exits with
  | true => exact ⟨rfl, rfl, rfl, rfl⟩
  | false => exact ⟨rfl, rfl, rfl, rfl⟩

end Taken

/-! ## O46 -/

section Clear
variable {s : State} {h : Header} {v : Byte}

/-- A refused clear only counts (R168). -/
theorem refuseClear_counts (hh : s.hands h) (st : Status) :
    let t := s.withNode (finish s.settings (refuseClear s.settings h st s.node))
    t.node.trip = { s.node.trip with clearsRefused := satInc s.node.trip.clearsRefused } ∧
      s.keepsBut [.trip, .ring, .flt] t ∧ s.offers [answerFrame h 15 st.code] t :=
  ⟨rfl, acted_answered hh 15 st (Node.keepsBut_of_overlay rfl)⟩

theorem writeTripClear_refused (c : Settings) (n : Node) {st : Byte}
    (hst : (n.seq.stand = .lockout ∧ st = 3) ∨
      (n.seq.stand ≠ .lockout ∧ (v = 0 ∨ 31 < v.toNat) ∧ st = 4) ∨
      (n.seq.stand ≠ .lockout ∧ v ≠ 0 ∧ v.toNat < 31 ∧ n.trip.recorded v.toNat = false ∧ st = 4) ∨
      (n.seq.stand ≠ .lockout ∧ anyLevelCause c.config n.pins = true ∧ (v = 31 ∨ v ≠ 0 ∧ v.toNat < 31 ∧
        n.trip.recorded v.toNat = true ∧ v.toNat = c.station) ∧ st = 3)) :
    ∃ status : Status, status.code = st ∧ writeTripClear c h v n = refuseClear c h status n := by
  have hrange (hzero : v ≠ 0) (hlow : v.toNat < 31) : ¬ (v.toNat = 0 || 31 < v.toNat) = true ∧ v.toNat ≠ 31 := by
    have hne : v.toNat ≠ 0 := fun h => hzero (BitVec.eq_of_toNat_eq h)
    simp only [Bool.or_eq_true, decide_eq_true_eq]
    omega
  unfold writeTripClear
  obtain ⟨hlock, rfl⟩ | ⟨hlock, hv, rfl⟩ | ⟨hlock, hzero, hlow, hrecorded, rfl⟩ | ⟨hlock, hlevel, hv, rfl⟩ := hst
  · exact ⟨.state, rfl, if_pos hlock⟩
  · refine ⟨.range, rfl, (if_neg hlock).trans (if_pos ?_)⟩
    rw [Bool.or_eq_true, decide_eq_true_eq, decide_eq_true_eq]
    exact hv.imp_left fun h => by rw [h]; rfl
  · obtain ⟨hin, h31⟩ := hrange hzero hlow
    exact ⟨.range, rfl, (if_neg hlock).trans ((if_neg hin).trans ((if_neg h31).trans
      (if_pos (by rw [hrecorded]; rfl))))⟩
  · refine ⟨.state, rfl, (if_neg hlock).trans ?_⟩
    obtain rfl | ⟨hzero, hlow, hrecorded, hown⟩ := hv
    · exact (if_neg (by decide)).trans ((if_pos rfl).trans (if_pos hlevel))
    · obtain ⟨hin, h31⟩ := hrange hzero hlow
      exact (if_neg hin).trans ((if_neg h31).trans ((if_neg (by rw [hrecorded]; exact Bool.false_ne_true)).trans
        (if_pos (by rw [decide_eq_true hown, hlevel]; rfl))))

end Clear

/-- Settles O46: refused in its order, or taken; a clear that empties the record ends TRIPPED. -/
theorem tripClearRetiresOrigins : Obligations.TripClearRetiresOrigins := by
  refine ⟨fun h s => rfl, ?_⟩
  intro h v s hl hphase ha n c level own held causes gone left dropped exits
  have hh : s.hands h := ha.1
  refine ⟨_, exec_tripClearStation h v hl ha, fun st hst => ?_, fun hlock hv hlevel hfault => ?_⟩
  · obtain ⟨status, rfl, hrefused⟩ := writeTripClear_refused (h := h) s.settings n hst
    rw [hrefused]
    exact refuseClear_counts hh status
  · have hstand := (foreign_of_hands hh).2
    have hrunning : s.node.startup.phase = .reading ∨ s.node.startup.phase = .running := by
      cases hp : s.node.startup.phase with
      | inReset => exact absurd hp hl
      | invalid => exact absurd (hphase.1 (.inr hp)) hstand
      | reading => exact .inl rfl
      | running => exact .inr rfl
    rw [writeTripClear_taken s.settings s.node hlock hv hlevel hstand (hphase.2 hrunning)]
    have hleave : (n.cleared s.settings (clearsOrigins v)
        (if own && held then none else n.ring.tripSlot) dropped).mayLeaveTripped = exits := mayLeave_cleared _ _ _ _ _
    have htrip : (n.cleared s.settings (clearsOrigins v)
        (if own && held then none else n.ring.tripSlot) dropped).trip = { n.trip with
          lines := (resetFlags s.settings n).trip.lines, active := left[0]?, pending := left[1]?, dropped := dropped
          localRepeats := if causes = 0 then n.trip.localRepeats else satAdd n.trip.localRepeats causes
          clearsTaken := satInc n.trip.clearsTaken } := by
      unfold Node.cleared
      rw [retire_eq]
      rfl
    have hjudge : judgeTripExit s.settings (n.cleared s.settings (clearsOrigins v)
        (if own && held then none else n.ring.tripSlot) dropped) = n.leftTripped s.settings (clearsOrigins v)
        (if own && held then none else n.ring.tripSlot) dropped exits := by
      unfold judgeTripExit Node.leftTripped
      rw [hleave]
      split
      next he => exact enterQuiet_unfaulted _ (hfault he)
      next => rfl
    obtain ⟨hkept, hring, hflt, hmemb⟩ := leftTripped_kept s.settings (clearsOrigins v)
      (if own && held then none else n.ring.tripSlot) dropped n exits
    have hlines := (congrArg TripUnit.lines (hkept.trans htrip)).symm
    rw [show judgeTripExit _ _ = _ from hjudge]
    refine ⟨(hkept.trans htrip).trans (congrArg (fun x => ({ n.trip with
      lines := x, active := left[0]?, pending := left[1]?, dropped := dropped
      localRepeats := if causes = 0 then n.trip.localRepeats else satAdd n.trip.localRepeats causes
      clearsTaken := satInc n.trip.clearsTaken } : TripUnit)) hlines), fun k => ?_, fun he => ?_, fun he => ?_,
      fun hroom => ?_⟩
    · exact (congrArg (fun x => getFour x k) hlines.symm).trans (resetFlags_lines s.settings n k)
    · rw [he]
      exact keepsBut_answer (Node.keepsBut_of_overlay rfl) (by decide) (by decide)
    · have hs : n.seq.stand = .tripped := by
        simp only [exits, Bool.and_eq_true, decide_eq_true_eq] at he
        exact he.1.1.1.1
      obtain ⟨a, x, y, z, hgap⟩ := enterQuietQuietly_gap s.settings (n := n.cleared s.settings (clearsOrigins v)
        (if own && held then none else n.ring.tripSlot) dropped) hs (hfault he)
      have hleft : (n.leftTripped s.settings (clearsOrigins v) (if own && held then none else n.ring.tripSlot) dropped
          exits).gap = _ := (congrArg Node.gap (if_pos he)).trans hgap
      refine ⟨congrArg Node.seq (if_pos he), (congrArg GapControl.base hleft).trans rfl,
        (congrArg GapControl.reference hleft).trans rfl, (congrArg GapControl.servoEn hleft).trans rfl, ?_⟩
      rw [he]
      exact keepsBut_answer (Node.keepsBut_of_overlay rfl) (by decide) (by decide)
    · obtain ⟨hb, hw, hq⟩ := hroom
      rw [settle_none _ _ (by rw [hflt]; exact hw), answer_room _ _ _ _ _ (by rw [hring]; exact hb)
        (by rw [hflt]; exact hw) (by rw [hring]; exact Nat.lt_of_succ_le hq)
        (by rw [hmemb]; exact admits_of_hands hh _), withNode_node,
        finish_quiet _ _ (by rw [hring]; exact hb) (by rw [hflt]; exact hw)]
      exact ⟨hflt, by rw [hring]; rfl⟩

end Sys2Proof.Machine
end

section
/-! SUPPORT. Loading schedules (R124 to R128): the slot that a frame finds, and what each of the three frames and the idle
timer makes of it. -/

namespace Sys2Proof.Machine

set_option Elab.async false

/-! ## The slot found -/

section Find
variable {p : Slot → Bool} {v : Four Slot}

theorem findSlot_none_iff : findSlot p v = none ↔ ∀ k, p (getFour v k) = false := by
  have hplaces : (∀ k, p (getFour v k) = false) ↔
      p v.x0 = false ∧ p v.x1 = false ∧ p v.x2 = false ∧ p v.x3 = false := by
    rw [Fin.forall_fin_succ, Fin.forall_fin_succ, Fin.forall_fin_succ, Fin.forall_fin_one]
    rfl
  rw [hplaces]
  unfold findSlot
  cases p v.x0 <;> cases p v.x1 <;> cases p v.x2 <;> cases p v.x3 <;> decide

/-- The search finds the slot of the lowest number. -/
theorem findSlot_first {k : Fin 4} (hk : p (getFour v k) = true) (hlow : ∀ j < k, p (getFour v j) = false) :
    findSlot p v = some k := by
  unfold findSlot
  match k with
  | 0 => exact if_pos hk
  | 1 =>
    exact (if_neg (Bool.eq_false_iff.mp (hlow 0 (by decide)))).trans (if_pos hk)
  | 2 =>
    exact (if_neg (Bool.eq_false_iff.mp (hlow 0 (by decide)))).trans
      ((if_neg (Bool.eq_false_iff.mp (hlow 1 (by decide)))).trans (if_pos hk))
  | 3 =>
    exact (if_neg (Bool.eq_false_iff.mp (hlow 0 (by decide)))).trans
      ((if_neg (Bool.eq_false_iff.mp (hlow 1 (by decide)))).trans
        ((if_neg (Bool.eq_false_iff.mp (hlow 2 (by decide)))).trans (if_pos hk)))

/-- The search finds the one slot of which the property holds. -/
theorem findSlot_unique {k : Fin 4} (hk : p (getFour v k) = true) (huniq : ∀ j, p (getFour v j) = true → j = k) :
    findSlot p v = some k := by
  refine findSlot_first hk fun j hj => Bool.eq_false_iff.mpr fun h => ?_
  exact absurd (huniq j h) (ne_of_lt hj)

theorem loadsOther_iff {x : Slot} {b : Byte} :
    x.loadsOther b = true ↔ ∃ l, x = .loading l ∧ l.source ≠ b := by
  cases x <;> simp [Slot.loadsOther]

end Find

/-! ## The frames -/

section Frames
variable {s : State} {h : Header} {id : Byte}

/-- By the law of the slots, a frame of a load finds its slot. -/
theorem findSlot_loads (hlaw : s.slotLaw) {k : Fin 4} {l : Loading}
    (hk : getFour s.node.sched.slots k = .loading l) (hid : l.id = id.toNat) (hsource : l.source = h.source) :
    findSlot (Slot.loads id.toNat h.source) s.node.sched.slots = some k := by
  have hkid : (getFour s.node.sched.slots k).id = some id.toNat := by rw [hk, ← hid]; rfl
  refine findSlot_unique (loads_iff.mpr ⟨l, hk, hid, hsource⟩) fun j hj => ?_
  obtain ⟨l', hl', hid', _⟩ := loads_iff.mp hj
  exact place_unique_of_slotLaw hlaw (by rw [hl', ← hid']; rfl) hkid

theorem loadAt_loads (hlaw : s.slotLaw) {k : Fin 4} {l : Loading}
    (hk : getFour s.node.sched.slots k = .loading l) (hid : l.id = id.toNat) (hsource : l.source = h.source) :
    loadAt s.node.sched.slots id.toNat h.source = some (k, l) := by
  rw [loadAt, findSlot_loads hlaw hk hid hsource]
  simp only [hk]

theorem loadAt_absent {n : Node} (hno : ∀ k l, getFour n.sched.slots k = .loading l → l.id = id.toNat →
    l.source ≠ h.source) : loadAt n.sched.slots id.toNat h.source = none := by
  have hnone : findSlot (Slot.loads id.toNat h.source) n.sched.slots = none := by
    refine findSlot_none_iff.mpr fun k => Bool.eq_false_iff.mpr fun hk => ?_
    obtain ⟨l, hl, hid, hsource⟩ := loads_iff.mp hk
    exact hno k l hl hid hsource
  rw [loadAt, hnone]

variable (c : Settings) (n : Node) {count : Byte}

/-- The declared count and the id that OPEN admits (R125). -/
theorem schedOpened_bad (hbad : id = 0 ∨ count ≠ 1 ∧ count ≠ 2) :
    schedOpened c h id count n = schedAnswer c h .range n := by
  have hne : ∀ b : Byte, count ≠ b → count.toNat ≠ b.toNat := fun b h he => h (BitVec.eq_of_toNat_eq he)
  refine if_pos ?_
  obtain hid | ⟨h1, h2⟩ := hbad
  · rw [decide_eq_true hid, Bool.true_or]
  · have h1' : count.toNat ≠ 1 := hne 1 h1
    have h2' : count.toNat ≠ 2 := hne 2 h2
    simp [h1', h2']

theorem schedOpened_good (hgood : ¬ (id = 0 ∨ count ≠ 1 ∧ count ≠ 2)) : schedOpened c h id count n =
    match findSlot (Slot.loads id.toNat h.source) n.sched.slots with
    | some k => schedAnswer c h .done (putSlot k (freshLoad id.toNat h.source count.toNat) n)
    | none =>
      if n.sched.holdsId id.toNat then schedAnswer c h .state n
      else match findSlot Slot.isEmpty n.sched.slots with
        | none => schedAnswer c h .busy n
        | some k =>
          if (listFour n.sched.slots).any (Slot.loadsOther h.source) then schedAnswer c h .busy n
          else schedAnswer c h .done (putSlot k (freshLoad id.toNat h.source count.toNat) n) := by
  obtain ⟨hid, hcount⟩ := not_or.mp hgood
  have hsmall : (count.toNat = 1 || count.toNat = 2) = true := by
    by_cases h1 : count = 1
    · rw [h1]; rfl
    · have h2 : count = 2 := not_not.mp fun h2 => hcount ⟨h1, h2⟩
      rw [h2]; rfl
  refine if_neg ?_
  rw [hsmall, decide_eq_false hid]
  exact Bool.false_ne_true

theorem schedSectionTaken_loads {number : Byte} {content : List Byte} {n : Node} {k : Fin 4} {l : Loading}
    (hload : loadAt n.sched.slots id.toNat h.source = some (k, l)) : schedSectionTaken c h id number content n =
    if number.toNat ≠ l.sections.length + 1 || l.declared < number.toNat ||
        !contentSuits number.toNat content then refuseLoad c h k n
    else schedAnswer c h .done
      (putSlot k (.loading { l with sections := l.sections ++ [content], timer := 1000 }) n) := by
  rw [schedSectionTaken, hload]

theorem schedClosed_loads {check : Half} {n : Node} {k : Fin 4} {l : Loading}
    (hload : loadAt n.sched.slots id.toNat h.source = some (k, l)) : schedClosed c h id check n =
    if l.sections.length < l.declared then refuseLoad c h k n
    else if check ≠ checkOf l.sections.flatten || !(scheduleOf l.sections).valid then failLoad c h k n
    else completeLoad c h k l n := by
  rw [schedClosed, hload]

end Frames

/-! ## The outcomes -/

section Outcomes
variable {s : State} {h : Header} {id : Byte}

/-- A CORRECTABLE fault touches the transmit side only. -/
theorem raise_correctable_rest (c : Settings) (n : Node) {code : FaultCode}
    (hc : code.cls n.seq.stand = .correctable) : ∃ r f, raise c code n = { n with ring := r, flt := f } := by
  rw [raise_eq_of_correctable _ _ _ hc]
  exact ⟨_, _, rfl⟩

/-- A load ended with SCHED_REFUSED, and the REPLY after the FAULT frame (R126, R127). -/
theorem refuseLoad_refuses (hh : s.hands h) (k : Fin 4) :
    let t := s.withNode (finish s.settings (refuseLoad s.settings h k s.node))
    t.node.sched = { s.node.sched with slots := setFour s.node.sched.slots k .empty } ∧
      s.keepsBut [.sched, .ring, .flt] t ∧
      (s.roomFor 2 →
        t.node.flt = s.node.flt.after s.settings (eventOf .schedRefused s.node) ∧
        t.node.ring = { s.node.ring with
          insertQueue := queueAfter s.settings s.node.memb.ring (eventOf .schedRefused s.node)
            s.node.flt s.node.ring.insertQueue ++ [answerFrame h 255 4] }) := by
  intro t
  obtain ⟨r, f, hraise⟩ := raise_correctable_rest s.settings (putSlot k .empty s.node) (code := .schedRefused) rfl
  refine ⟨(congrArg Node.sched hraise).trans rfl, keepsBut_answer ?_ (by decide) (by decide),
    fun ⟨hb, hw, hq⟩ => ?_⟩
  · rw [hraise]
    exact Node.keepsBut_of_overlay rfl
  · have hraised := raise_room s.settings (putSlot k .empty s.node) .schedRefused rfl (by exact hb) (by exact hw)
      (show s.node.ring.insertQueue.length < 16 by omega)
    have hlen := length_queueAfter s.settings s.node.memb.ring (eventOf .schedRefused s.node) s.node.flt
      s.node.ring.insertQueue
    change (finish s.settings (schedAnswer s.settings h .range (raise s.settings .schedRefused _))).flt = _ ∧
      (finish s.settings (schedAnswer s.settings h .range (raise s.settings .schedRefused _))).ring = _
    rw [hraised, schedAnswer, answer_room _ _ _ _ _ (by exact hb) rfl (by exact Nat.lt_of_le_of_lt hlen (by omega))
      (by exact admits_of_hands hh _), finish_quiet _ _ (by exact hb) rfl]
    exact ⟨rfl, rfl⟩

/-- A SECTION's content suits its number (R126). -/
theorem contentSuits_iff {number : Byte} {content : List Byte} : contentSuits number.toNat content = true ↔
    (number = 1 → content.length = 18) ∧
      (number ≠ 1 → ∃ m more, content = m :: more ∧ m.toNat ≤ 8 ∧ more.length = 3 * m.toNat) := by
  have hone : number = 1 ↔ number.toNat = 1 := ⟨fun h => by rw [h]; rfl, fun h => BitVec.eq_of_toNat_eq h⟩
  unfold contentSuits
  by_cases h1 : number.toNat = 1
  · rw [if_pos h1, decide_eq_true_eq]
    simp only [hone, h1, ne_eq, not_true_eq_false, true_implies, false_implies, and_true]
  · rw [if_neg h1]
    simp only [hone, h1, ne_eq, not_false_eq_true, true_implies, false_implies, true_and]
    cases content with
    | nil => simp
    | cons m more => simp

end Outcomes

/-! ## O49 -/

section Rows
variable {s : State} {h : Header} {id : Byte}

theorem exec_schedOpen {count : Byte} (hl : s.live) (ha : s.admitsSched h) : exec (.schedOpen h id count) s =
    .next (s.withNode (finish s.settings (schedOpened s.settings h id count s.node))) := by
  have hexec : exec (.schedOpen h id count) s = s.act (fun c n => schedArrives c h (schedOpened c h id count) n) := rfl
  rw [hexec, State.act_live _ _ hl, schedArrives_admitted _ _ ha]

theorem exec_schedSection {number : Byte} {content : List Byte} (hl : s.live) (ha : s.admitsSched h) :
    exec (.schedSection h id number content) s =
      .next (s.withNode (finish s.settings (schedSectionTaken s.settings h id number content s.node))) := by
  have hexec : exec (.schedSection h id number content) s =
    s.act (fun c n => schedArrives c h (schedSectionTaken c h id number content) n) := rfl
  rw [hexec, State.act_live _ _ hl, schedArrives_admitted _ _ ha]

theorem exec_schedClose {check : Half} (hl : s.live) (ha : s.admitsSched h) : exec (.schedClose h id check) s =
    .next (s.withNode (finish s.settings (schedClosed s.settings h id check s.node))) := by
  have hexec : exec (.schedClose h id check) s = s.act (fun c n => schedArrives c h (schedClosed c h id check) n) := rfl
  rw [hexec, State.act_live _ _ hl, schedArrives_admitted _ _ ha]

/-- OPEN starts a load in a slot (R125). -/
theorem freshLoad_starts (hh : s.hands h) (k : Fin 4) (count : Byte) :
    let t := s.withNode (finish s.settings (schedAnswer s.settings h .done
      (putSlot k (freshLoad id.toNat h.source count.toNat) s.node)))
    t.node.sched = { s.node.sched with slots := setFour s.node.sched.slots k (.loading
      { id := id.toNat, source := h.source, declared := count.toNat, sections := [], timer := 1000 }) } ∧
      s.keepsBut [.sched, .ring, .flt] t ∧ s.offers [answerFrame h 255 0] t :=
  ⟨rfl, acted_answered hh 255 .done (Node.keepsBut_of_overlay rfl)⟩

/-- A SCHED frame from a station outside the authority list (R124). -/
theorem schedArrives_refused (hl : s.live) (hh : s.hands h) (hauth : h.source.toNat ∉ s.settings.config.authority)
    (f : Settings → Node → Node) : ∃ t, s.act (fun c n => schedArrives c h (f c) n) = .next t ∧
      s.keepsBut [.ring, .flt] t ∧ s.offers [answerFrame h 255 2] t := by
  have hrefused : schedArrives s.settings h (f s.settings) s.node = answer s.settings h 255 .access s.node := by
    have hno : inAuthority s.settings h.source = false := (inAuthority_eq_false_iff s.settings).mpr hauth
    unfold State.hands at hh
    unfold schedArrives
    rw [hh, hno]
    rfl
  refine ⟨_, State.act_live _ _ hl, ?_⟩
  rw [hrefused]
  exact answered_unchanged hh 255 .access

end Rows

/-- Settles O49: OPEN, SECTION and CLOSE by the slot that they find, the idle timer, and the authority. -/
theorem scheduleLoadRuns : Obligations.ScheduleLoadRuns := by
  refine ⟨?_, ?_, ?_, ?_⟩
  · intro h id count s hl ha hlaw slots fresh reloads held full other bad
    have hh : s.hands h := ha.1
    have hheld : held ↔ s.node.sched.holdsId id.toNat = true := SchedStore.holdsId_iff.symm
    have hnew : ¬ held → findSlot (Slot.loads id.toNat h.source) slots = none := by
      intro hno
      refine findSlot_none_iff.mpr fun k => Bool.eq_false_iff.mpr fun hk => hno ⟨k, ?_⟩
      obtain ⟨l, hl, hid, _⟩ := loads_iff.mp hk
      rw [hl, ← hid]
      rfl
    have hother : (listFour slots).any (Slot.loadsOther h.source) = true ↔ other :=
      any_listFour.trans (exists_congr fun k => loadsOther_iff)
    refine ⟨_, exec_schedOpen hl ha, fun hbad => ?_, fun hgood k l hk hid hsource => ?_, fun hgood hno hyes => ?_,
      fun hgood hno hbusy => ?_, fun hgood hno hfree k hk hlow => ?_⟩
    · rw [schedOpened_bad _ _ hbad]
      exact answered_unchanged hh 255 .range
    · rw [schedOpened_good _ _ hgood, findSlot_loads hlaw hk hid hsource]
      exact freshLoad_starts hh k count
    · have hnone : findSlot (Slot.loads id.toNat h.source) slots = none := by
        refine findSlot_none_iff.mpr fun k => Bool.eq_false_iff.mpr fun hk => hno ?_
        obtain ⟨l, hl⟩ := loads_iff.mp hk
        exact ⟨k, l, hl⟩
      rw [schedOpened_good _ _ hgood, show findSlot _ s.node.sched.slots = none from hnone]
      dsimp only
      rw [if_pos (hheld.mp hyes)]
      exact answered_unchanged hh 255 .state
    · rw [schedOpened_good _ _ hgood, show findSlot _ s.node.sched.slots = none from hnew hno]
      dsimp only
      rw [if_neg (mt hheld.mpr hno)]
      split
      next => exact answered_unchanged hh 255 .busy
      next k hk =>
        have hempty := isEmpty_iff.mp (findSlot_some hk)
        obtain hfull | hyes := hbusy
        · exact absurd hempty (hfull k)
        · rw [if_pos (hother.mpr hyes)]
          exact answered_unchanged hh 255 .busy
    · have hfirst : findSlot Slot.isEmpty s.node.sched.slots = some k :=
        findSlot_first (isEmpty_iff.mpr hk) fun j hj => Bool.eq_false_iff.mpr fun he => hlow j hj (isEmpty_iff.mp he)
      rw [schedOpened_good _ _ hgood, show findSlot _ s.node.sched.slots = none from hnew hno]
      dsimp only
      rw [if_neg (mt hheld.mpr hno), hfirst]
      dsimp only
      rw [if_neg (mt hother.mp hfree)]
      exact freshLoad_starts hh k count
  · intro h id number content check s hl ha hlaw sched refused
    have hh : s.hands h := ha.1
    refine ⟨⟨_, exec_schedSection hl ha, fun k l hk hid hsource => ?_, fun hno => ?_⟩,
      ⟨_, exec_schedClose hl ha, fun k l hk hid hsource => ?_, fun hno => ?_⟩⟩
    · intro suits
      have hsuits : suits ↔ ¬ (number.toNat ≠ l.sections.length + 1 || l.declared < number.toNat ||
          !contentSuits number.toNat content) = true := by
        simp only [Bool.or_eq_true, decide_eq_true_eq, Bool.not_eq_true', Bool.eq_false_iff, ne_eq, not_or, not_not,
          not_lt, contentSuits_iff, and_assoc, suits]
      rw [schedSectionTaken_loads _ (loadAt_loads hlaw hk hid hsource)]
      refine ⟨fun hyes => ?_, fun hno => ?_⟩
      · rw [if_neg (hsuits.mp hyes)]
        exact ⟨rfl, acted_answered hh 255 .done (Node.keepsBut_of_overlay rfl)⟩
      · rw [if_pos (not_not.mp (mt hsuits.mpr hno))]
        exact refuseLoad_refuses hh k
    · have habsent : schedSectionTaken s.settings h id number content s.node =
          answer s.settings h 255 .state s.node := by
        unfold schedSectionTaken
        rw [loadAt_absent hno]
        rfl
      rw [habsent]
      exact answered_unchanged hh 255 .state
    · intro good
      have hgood : good ↔ ¬ (check ≠ checkOf l.sections.flatten || !(scheduleOf l.sections).valid) = true := by
        simp only [Bool.or_eq_true, decide_eq_true_eq, Bool.not_eq_true', Bool.eq_false_iff, ne_eq, not_or, not_not,
          good]
      rw [schedClosed_loads _ (loadAt_loads hlaw hk hid hsource)]
      refine ⟨fun hmissing => ?_, fun hwhole hbad => ?_, fun hwhole hyes => ?_⟩
      · rw [if_pos hmissing]
        exact refuseLoad_refuses hh k
      · rw [if_neg (Nat.not_lt.mpr hwhole), if_pos (not_not.mp (mt hgood.mpr hbad))]
        exact ⟨rfl, acted_answered hh 255 .failed (Node.keepsBut_of_overlay rfl)⟩
      · rw [if_neg (Nat.not_lt.mpr hwhole), if_neg (hgood.mp hyes), ← hid]
        exact ⟨rfl, acted_answered hh 255 .done (Node.keepsBut_of_overlay rfl)⟩
    · have habsent : schedClosed s.settings h id check s.node = answer s.settings h 255 .state s.node := by
        unfold schedClosed
        rw [loadAt_absent hno]
        rfl
      rw [habsent]
      exact answered_unchanged hh 255 .state
  · intro k s hl
    have hexec : exec (.schedIdleTimeout k) s = s.act (fun _ n => schedIdle k n) := rfl
    refine ⟨_, hexec.trans (State.act_live _ _ hl), fun l hk hout => ?_, fun hrunning => ?_⟩
    · have hidle : schedIdle k s.node = { s.node with sched := { s.node.sched with
          slots := setFour s.node.sched.slots k .empty
          loadTimeouts := satInc s.node.sched.loadTimeouts } } := if_pos (by rw [hk]; exact (timerOut_iff _).mpr (congrArg some hout))
      rw [hidle]
      exact ⟨rfl, acted_quietly (Node.keepsBut_of_overlay rfl)⟩
    · have hidle : schedIdle k s.node = s.node := by
        refine if_neg fun hout => ?_
        cases hk : getFour s.node.sched.slots k with
        | loading l =>
          rw [hk] at hout
          exact hrunning l hk (Option.some.inj ((timerOut_iff _).mp hout))
        | _ =>
          rw [hk] at hout
          cases hout
      rw [hidle]
      exact acted_quietly (Node.keepsBut_of_overlay rfl)
  · intro i h id b content check s hl hi hh hauth
    obtain rfl | rfl | rfl := hi
    · exact schedArrives_refused hl hh hauth fun c => schedOpened c h id b
    · exact schedArrives_refused hl hh hauth fun c => schedSectionTaken c h id b content
    · exact schedArrives_refused hl hh hauth fun c => schedClosed c h id check

end Sys2Proof.Machine
end

section
/-! SUPPORT. MARK and TRIP frames (R98, R99, R164 to R167). -/

namespace Sys2Proof.Machine

set_option Elab.async false

variable {s : State} {h : Header}

/-! ## A fault with further effects after it -/

/-- A CORRECTABLE fault reported, and then effects on the blocks other than the transmit side. -/
theorem reports_then {code : FaultCode} {m x : Node} (hc : code.cls s.node.seq.stand = .correctable)
    (hr : m.ring = s.node.ring) (hf : m.flt = s.node.flt) (hm : m.memb.ring = s.node.memb.ring)
    (hs : m.seq.stand = s.node.seq.stand) (ht : m.track.current = s.node.track.current)
    (hxr : x.ring = (raise s.settings code m).ring) (hxf : x.flt = (raise s.settings code m).flt) :
    s.reports code s.node (s.withNode (finish s.settings x)) := by
  intro hroom
  have hreports := reports_raise hc hr hf hm hs ht hroom
  obtain ⟨hb, hw, hq⟩ := hroom
  have hraise := raise_room s.settings m code (by rw [hs]; exact hc) (by rw [hr]; exact hb) (by rw [hf]; exact hw)
    (by rw [hr]; exact Nat.lt_of_succ_le hq)
  have hbusy : (raise s.settings code m).ring.sending.isSome = true := by
    rw [hraise]
    exact (congrArg (fun r => r.sending.isSome) hr).trans hb
  have hnone : (raise s.settings code m).flt.raised = [] := by
    rw [hraise]
    rfl
  rw [withNode_node, finish_quiet _ _ hbusy hnone] at hreports
  rw [withNode_node, finish_quiet _ _ (by rw [hxr]; exact hbusy) (by rw [hxf]; exact hnone), hxr, hxf]
  exact hreports

/-! ## MARK -/

section Mark
variable (c : Settings) {p : MarkPayload} {n : Node}

/-- The node with a MARK counted. -/
def Node.markCounted (n : Node) : Node := { n with track := { n.track with
  counts := { n.track.counts with marksReceived := satInc n.track.counts.marksReceived } } }

theorem receiveMark_foreign {source : Byte} (hup : source ≠ byte c.config.upstream) :
    receiveMark c source p n = noteForeign n := if_pos hup

theorem receiveMark_idle {source : Byte} (hup : source = byte c.config.upstream) (hs : n.seq.stand ≠ .rolling) :
    receiveMark c source p n = n.markCounted := (if_neg (not_not.mpr hup)).trans (if_neg hs)

theorem receiveMark_rolling {source : Byte} (hup : source = byte c.config.upstream) (hs : n.seq.stand = .rolling) :
    receiveMark c source p n = cobbleCheck c p n.markCounted := (if_neg (not_not.mpr hup)).trans (if_pos hs)

theorem cobbleCheck_first (hb : n.track.baseline = none) : cobbleCheck c p n = takeBaseline p n := by
  simp only [cobbleCheck, hb]

theorem cobbleCheck_gap {number : Half} {count : Pos} (hb : n.track.baseline = some (number, count))
    (hp : p.number ≠ number + BitVec.ofNat 16 (markIntervalUsed p)) :
    cobbleCheck c p n = takeBaseline p (raise c .markGap n) := by
  simp only [cobbleCheck, hb, if_neg hp]

theorem cobbleCheck_follows {number : Half} {count : Pos} (hb : n.track.baseline = some (number, count))
    (hp : p.number = number + BitVec.ofNat 16 (markIntervalUsed p)) :
    cobbleCheck c p n = compareMark c p count n := by
  simp only [cobbleCheck, hb, if_pos hp]

end Mark

/-- Settles O51: by the source, the stand state and the baseline. -/
theorem markChecksCobble : Obligations.MarkChecksCobble := by
  intro h p s hl hh n tr cnt up interval length based
  refine ⟨_, exec_markReceived h p hl hh, fun hup => ?_, fun hup hs => ?_, fun hup hs hb => ?_,
    fun hup hs m0 c0 hb hp => ?_, fun hup hs m0 c0 hb hp => ?_⟩
  · rw [receiveMark_foreign _ hup]
    exact ⟨rfl, acted_quietly (Node.keepsBut_of_overlay rfl)⟩
  · rw [receiveMark_idle _ hup hs]
    exact ⟨rfl, acted_quietly (Node.keepsBut_of_overlay rfl)⟩
  · rw [receiveMark_rolling _ hup hs, cobbleCheck_first _ (by exact hb)]
    exact ⟨rfl, acted_quietly (Node.keepsBut_of_overlay rfl)⟩
  · rw [receiveMark_rolling _ hup hs, cobbleCheck_gap _ (by exact hb) hp]
    obtain ⟨r, f, hraise⟩ := raise_correctable_rest s.settings n.markCounted (code := .markGap) rfl
    refine ⟨(congrArg (fun x => (takeBaseline p x).track) hraise).trans rfl,
      keepsBut_finish ?_ (by decide) (by decide),
      reports_then (m := n.markCounted) rfl rfl rfl rfl rfl rfl rfl rfl⟩
    rw [hraise]
    exact Node.keepsBut_of_overlay rfl
  · intro advance diff compared
    rw [receiveMark_rolling _ hup hs, cobbleCheck_follows _ (by exact hb) hp]
    refine ⟨fun hsmall => ?_, fun hlarge hu => ?_⟩
    · have hagree : compareMark s.settings p c0 n.markCounted = { n with track := compared } :=
        if_neg (Nat.not_lt.mpr hsmall)
      rw [show compareMark _ _ _ _ = _ from hagree]
      exact ⟨rfl, acted_quietly (Node.keepsBut_of_overlay rfl)⟩
    · have hcobble : compareMark s.settings p c0 n.markCounted =
          raise s.settings .cobble { n with track := compared } := if_pos hlarge
      rw [show compareMark _ _ _ _ = _ from hcobble]
      exact ⟨rfl, rfl, rfl, tripsByFault_raise (m := { n with track := compared }) hu (.inl rfl) rfl rfl⟩

/-! ## TRIP -/

section Trip
variable (c : Settings) {o : Origin} {n : Node}

/-- The origin record once an origin of another station has been entered (R164 to R166). -/
def TripUnit.entered (o : Origin) (t : TripUnit) : TripUnit :=
  if isUnknown t.active then { t with active := some o } else t.placeOrigin o

theorem receiveTrip_ignored (hi : tripIgnored c o n = true) : receiveTrip c o n =
    { n with trip := { n.trip with ignoredTrips := satInc n.trip.ignoredTrips } } := if_pos hi

theorem receiveTrip_entered (hi : ¬ tripIgnored c o n = true) :
    receiveTrip c o n = enterTrippedIfNot c { n with trip := n.trip.entered o } := by
  unfold receiveTrip TripUnit.entered
  rw [if_neg hi]
  split
  · rfl
  · rfl

theorem entered_eq (t : TripUnit) : t.entered o = (match t.active, t.pending with
    | none, _ => { t with active := some o }
    | some a, q =>
      if a.station = 0 then { t with active := some o }
      else match q with
        | none => { t with pending := some o }
        | some _ => { t with dropped := satInc t.dropped }) := by
  unfold TripUnit.entered TripUnit.placeOrigin
  cases hactive : t.active with
  | none => rfl
  | some a =>
    by_cases ha : a.station = 0
    · rw [show isUnknown (some a) = true from decide_eq_true ha]
      simp only [ha, if_true]
    · rw [show isUnknown (some a) = false from decide_eq_false ha]
      simp only [ha, if_false, Bool.false_eq_true]
      cases t.pending with
      | none => rfl
      | some b => rfl

end Trip

/-- Settles O52: an origin is ignored, or entered in the record, from a stand before a trip with the trip entry. -/
theorem tripFrameIsRecorded : Obligations.TripFrameIsRecorded := by
  intro h p s hl hh n o ignored
  have horigin : tripOrigin p = o := by
    simp only [tripOrigin, heldNat, Nat.zero_max, o]
  have hexec := exec_tripReceived h p hl hh
  rw [horigin] at hexec
  refine ⟨_, hexec, rfl, rfl, rfl, fun hi => ?_, fun hi hu => ?_, fun hi hs => ?_⟩
  · rw [receiveTrip_ignored _ (by exact hi)]
    exact ⟨rfl, acted_quietly (Node.keepsBut_of_overlay rfl)⟩
  · have hrecord : n.trip.entered o = { n.trip with active := some o } := by
      rw [entered_eq, hu.2.2.1]
    have htrip : receiveTrip s.settings o s.node =
        enterTripped s.settings { n with trip := { n.trip with active := some o } } := by
      rw [receiveTrip_entered _ (Bool.eq_false_iff.mp hi), enterTrippedIfNot, if_neg]
      · exact congrArg (fun x => enterTripped s.settings { n with trip := x }) hrecord
      · exact Bool.eq_false_iff.mp hu.notStopped
    rw [htrip]
    obtain ⟨hstart, hpins, hclock, hfree⟩ := enterTripped_kept s.settings
      { n with trip := { n.trip with active := some o } }
    exact ⟨enterTripped_tripsTo s.settings { n with trip := { n.trip with active := some o } },
      enterTripped_trip s.settings _, hstart, hpins, hclock, hfree,
      offers_of_sent fun hroom => enterTripped_sent _ rfl rfl hroom⟩
  · rw [receiveTrip_entered _ (Bool.eq_false_iff.mp hi), enterTrippedIfNot, if_pos (by exact hs)]
    exact ⟨entered_eq n.trip, acted_quietly (Node.keepsBut_of_overlay rfl)⟩

end Sys2Proof.Machine
end

section
/-! SUPPORT. SEG frames (R93 to R96, R132, R134): what joins the arrival queue, and what a record that is applied at once
in READY makes of the node. -/

namespace Sys2Proof.Machine

set_option Elab.async false

variable (c : Settings) {p : SegPayload} {n : Node}

/-! ## What joins the queue -/

/-- The due position of a SEG behind the records of a queue (R95). -/
def dueBehind (q : List ArrivalRecord) (p : SegPayload) (n : Node) : Pos :=
  let due := n.meas.entryCount + mm (min 12000 p.remaining.toNat) - mm c.config.ffLead
  match q.getLast? with
  | none => due
  | some x => if passed x.due due then x.due else due

theorem dueOf_eq : dueOf c n p = dueBehind c n.track.arrival p n := by
  have hheld : heldNat 0 12000 p.remaining.toNat = min 12000 p.remaining.toNat := Nat.zero_max _
  unfold dueOf dueBehind
  exact congrArg (fun k => match n.track.arrival.getLast? with
    | none => n.meas.entryCount + mm k - mm c.config.ffLead
    | some x => if passed x.due (n.meas.entryCount + mm k - mm c.config.ffLead) then x.due
      else n.meas.entryCount + mm k - mm c.config.ffLead) hheld

/-- The record of a SEG, its fields held in their ranges (R94, R196). -/
def arrivalRecord (p : SegPayload) (due : Pos) : ArrivalRecord :=
  { number := p.number, coil := p.coil
    deviation := if p.sampleCount = 0 then none
      else some (max (-2000) (min 2000 p.deviation.toInt))
    sampleCount := p.sampleCount.toNat, head := p.flags.getLsbD 0, weld := p.flags.getLsbD 1
    tail := p.flags.getLsbD 2, offgauge := p.flags.getLsbD 3, beyond := p.flags.getLsbD 4
    remaining := min 12000 p.remaining.toNat, scheduleId := p.scheduleId.toNat, due := due }

theorem segRecord_eq (due : Pos) : segRecord p due = arrivalRecord p due := by
  simp only [segRecord, arrivalRecord, segDeviation, heldNat, heldInt, Nat.zero_max]

theorem joinArrival_eq : joinArrival c p n = { n with track := { n.track with
    arrival := n.track.arrival ++ [arrivalRecord p (dueBehind c n.track.arrival p n)]
    expected := some (p.number + 1) } } := by
  rw [joinArrival, dueOf_eq, segRecord_eq]

/-- A record that joins a queue with others, or is not yet due, waits (R96). -/
theorem acceptSeg_waits (hw : n.track.arrival ≠ [] ∨
    reaches n.meas.entryCount (dueBehind c n.track.arrival p n) = false) :
    acceptSeg c p n = joinArrival c p n := by
  unfold acceptSeg
  split
  next hempty =>
    rw [List.isEmpty_iff] at hempty
    have hearly : reaches n.meas.entryCount (dueBehind c [] p n) = false := by
      obtain h | h := hw
      · exact absurd hempty h
      · rwa [hempty] at h
    rw [joinArrival_eq, hempty]
    unfold applyAll
    refine (if_neg ?_)
    rw [show reaches n.meas.entryCount (arrivalRecord p (dueBehind c [] p n)).due = false from hearly, Bool.and_false]
    exact Bool.false_ne_true
  next => rfl

/-- A record that joins an empty queue and is due is applied, and no other (R96). -/
theorem acceptSeg_applies (hempty : n.track.arrival = []) (hhead : n.track.headWaiting = false)
    (hdue : reaches n.meas.entryCount (dueBehind c [] p n) = true) :
    acceptSeg c p n = applyRecord c (arrivalRecord p (dueBehind c [] p n)) (joinArrival c p n) := by
  have hjoin : joinArrival c p n = { n with track := { n.track with
      arrival := [arrivalRecord p (dueBehind c [] p n)], expected := some (p.number + 1) } } := by
    rw [joinArrival_eq, hempty, List.nil_append]
  unfold acceptSeg
  rw [if_pos (List.isEmpty_iff.mpr hempty), hjoin]
  exact if_pos (by rw [hhead, show reaches n.meas.entryCount (arrivalRecord p (dueBehind c [] p n)).due = true from hdue]; rfl)

/-! ## The sequence check (R93, R94) -/

/-- The node with a SEG counted as received. -/
def Node.segCounted (n : Node) : Node := { n with track := { n.track with
  counts := { n.track.counts with received := satInc n.track.counts.received } } }

section Source
variable {source : Byte}

theorem receiveSeg_foreign (hup : source ≠ byte c.config.upstream) : receiveSeg c source p n = noteForeign n :=
  if_pos hup

theorem receiveSeg_unexpected (hup : source = byte c.config.upstream) (ht : takesArrivals n = false) :
    receiveSeg c source p n = { n with track := { n.track with counts := { n.track.counts with
      unexpected := satInc n.track.counts.unexpected } } } :=
  (if_neg (not_not.mpr hup)).trans (if_neg (by rw [ht]; exact Bool.false_ne_true))

theorem receiveSeg_taken (hup : source = byte c.config.upstream) (ht : takesArrivals n = true) :
    receiveSeg c source p n = sequenceCheck c p n.segCounted :=
  (if_neg (not_not.mpr hup)).trans (if_pos ht)

end Source

theorem sequenceCheck_head (hh : p.flags.getLsbD 0 = true) :
    sequenceCheck c p n = acceptSeg c p (clearForHead n) := if_pos hh

theorem sequenceCheck_behind (hh : p.flags.getLsbD 0 = false) {e : Half} (he : n.track.expected = some e)
    (hd : 32768 ≤ (p.number - e).toNat) : sequenceCheck c p n = { n with track := { n.track with
      counts := { n.track.counts with duplicates := satInc n.track.counts.duplicates } } } := by
  simp only [sequenceCheck, hh, Bool.false_eq_true, if_false, he, if_pos hd]

theorem sequenceCheck_full (hh : p.flags.getLsbD 0 = false) {e : Half} (he : n.track.expected = some e)
    (hd : (p.number - e).toNat < 32768) (hfull : 16 ≤ n.track.arrival.length) :
    sequenceCheck c p n = raise c .arrivalFull n := by
  simp only [sequenceCheck, hh, Bool.false_eq_true, if_false, he, if_neg (Nat.not_le.mpr hd), if_pos hfull]

theorem sequenceCheck_inOrder (hh : p.flags.getLsbD 0 = false)
    (ho : n.track.expected = none ∨ n.track.expected = some p.number) (hroom : n.track.arrival.length < 16) :
    sequenceCheck c p n = acceptSeg c p n := by
  unfold sequenceCheck
  rw [if_neg (by rw [hh]; exact Bool.false_ne_true)]
  obtain ho | ho := ho
  · rw [ho]
  · have hd : (p.number - p.number).toNat = 0 := by rw [BitVec.sub_self]; rfl
    rw [ho]
    dsimp only
    rw [hd, if_neg (by decide), if_neg (Nat.not_le.mpr hroom), if_pos rfl]

/-- The node with a track gap counted. -/
def Node.gapNoted (d : Nat) (n : Node) : Node := { n with track := { n.track with
  counts := { n.track.counts with trackGaps := satAdd n.track.counts.trackGaps (gapCounted d) } } }

theorem sequenceCheck_ahead (hh : p.flags.getLsbD 0 = false) {e : Half} (he : n.track.expected = some e)
    (hpos : 0 < (p.number - e).toNat) (hd : (p.number - e).toNat < 32768) (hroom : n.track.arrival.length < 16) :
    sequenceCheck c p n = acceptSeg c p (noteGap c (p.number - e).toNat n) := by
  simp only [sequenceCheck, hh, Bool.false_eq_true, if_false, he, if_neg (Nat.not_le.mpr hd),
    if_neg (Nat.not_le.mpr hroom), if_neg (Nat.pos_iff_ne_zero.mp hpos)]

/-! ## A record applied in READY (R96, R132, R134) -/

section Ready
variable {r : ArrivalRecord}

theorem strip_of_ready (hs : n.seq.stand = .ready) : n.seq.stand.strip = false := by rw [hs]; rfl

theorem reassembleUnheld_ready (hs : n.seq.stand = .ready) : reassembleUnheld c n = n := by
  refine if_neg ?_
  rw [strip_of_ready hs, Bool.false_and]
  exact Bool.false_ne_true

theorem handOver_ready (hs : n.seq.stand = .ready) : handOver c r n = { n with
    sched := (n.sched.profileStep r.number).1
    gap := { n.gap with
      profileTrim := (n.sched.profileStep r.number).2.getD n.gap.profileTrim, waiting := none
      lastApplied := some (r.number, r.scheduleId) }
    track := { n.track with arrival := n.track.arrival.drop 1, headWaiting := false } } := by
  have hjudge : ffJudge n r.deviation = .keep := by simp [ffJudge, hs]
  unfold handOver
  rw [hjudge]
  dsimp only
  unfold accept
  dsimp only
  split
  · rw [reassembleUnheld_ready c (by exact hs)]
  · rfl

theorem noteLate_alone {x : ArrivalRecord} (h : n.track.arrival = [x]) : noteLate c n = n := by
  refine if_neg ?_
  rw [lateBehind, h]
  exact Bool.false_ne_true

/-- The coil change in READY (R132). -/
theorem handWeld_ready (hs : n.seq.stand = .ready) (hw : r.weld = true) : handWeld c r n = { n with
    dir := { n.dir with changed := ChangedFlags.clear }
    flt := n.flt.resetBudget
    sched := { n.sched with
      profile := some { weld := r.number, id := n.sched.activeId, nextEntry := 1 }
      coilChanges := satInc n.sched.coilChanges }
    gap := { n.gap with profileTrim := 0 } } := by
  have hfly : flyIfArmed c n = n := by simp [flyIfArmed, hs]
  unfold handWeld
  rw [if_pos hw, coilChange, hfly, reassembleUnheld_ready c (by exact hs), recordWeld]
  refine if_pos ?_
  rw [show n.seq.stand.strip = false from strip_of_ready hs]
  rfl

theorem handWeld_none (hw : r.weld = false) : handWeld c r n = n := if_neg (by rw [hw]; exact Bool.false_ne_true)

/-- A record of no tail that stands alone in the queue, applied. -/
theorem applyRecord_alone {x : ArrivalRecord} (ha : n.track.arrival = [x])
    (ht : r.tail = false) : applyRecord c r n = handOver c r (handWeld c r (noteApplied r n)) := by
  unfold applyRecord handTail
  rw [noteLate_alone c ha, if_neg (by rw [ht]; exact Bool.false_ne_true)]

/-- The entries of a validated profile lie beyond its weld (R122, R134). -/
theorem entryReached_of_valid {weld : Half} {offset : Nat} (hlow : 1 ≤ offset) (hhigh : offset ≤ 255) :
    entryReached weld weld offset = false := by
  refine decide_eq_false ?_
  have hoff : (BitVec.ofNat 16 offset).toNat = offset := by
    rw [BitVec.toNat_ofNat]
    omega
  have hweld := weld.isLt
  rw [BitVec.toNat_sub, BitVec.toNat_add, hoff]
  omega

/-- A weld's own number reaches no entry of a validated profile (R122, R134). -/
theorem profileStep_weld {st : SchedStore} {weld : Half} {id : Nat} (hp : st.profile = some
      { weld := weld, id := id, nextEntry := 1 })
    (hvalid : ∀ x ∈ listFour st.slots, ∀ r, x.record = some r → r.valid = true) :
    st.profileStep weld = (st, none) := by
  have hnone : lastReached weld weld 1 (st.profileOf id) = none := by
    refine (lastReached_none weld weld _ 1).mpr fun e he => ?_
    unfold SchedStore.profileOf at he
    split at he
    next x hx =>
      cases hr : x.record with
      | none =>
        rw [hr] at he
        cases he
      | some r =>
        rw [hr] at he
        have hrow := hvalid x (List.mem_of_find?_eq_some hx) r hr
        simp only [Schedule.valid, Bool.and_eq_true, List.all_eq_true, decide_eq_true_eq] at hrow
        obtain ⟨⟨⟨⟨⟨⟨⟨⟨_, hall⟩, _⟩, _⟩, _⟩, _⟩, _⟩, _⟩, _⟩ := hrow
        obtain ⟨⟨⟨hlow, hhigh⟩, _⟩, _⟩ := hall e he
        exact entryReached_of_valid hlow hhigh
    next => cases he
  have hdrop : (st.profileOf id).drop (1 - 1) = st.profileOf id := rfl
  simp only [SchedStore.profileStep, hp, hdrop, hnone]

/-- The node with the one record of its queue applied (R96). -/
def Node.applied (p : SegPayload) (n : Node) : Node := { n with track := { n.track with
  expected := some (p.number + 1), entryCoil := p.coil
  counts := { n.track.counts with applied := satInc n.track.counts.applied } } }

section Due
variable (hs : n.seq.stand = .ready) (hempty : n.track.arrival = []) (hhead : n.track.headWaiting = false)
  (hdue : reaches n.meas.entryCount (dueBehind c [] p n) = true) (htail : p.flags.getLsbD 2 = false)
include hs hempty hhead hdue htail

omit hs in
theorem acceptSeg_hands : acceptSeg c p n = handOver c (arrivalRecord p (dueBehind c [] p n))
    (handWeld c (arrivalRecord p (dueBehind c [] p n)) { n.applied p with track := { (n.applied p).track with
      arrival := [arrivalRecord p (dueBehind c [] p n)] } }) := by
  have hjoin : joinArrival c p n = { n with track := { n.track with
      arrival := [arrivalRecord p (dueBehind c [] p n)], expected := some (p.number + 1) } } := by
    rw [joinArrival_eq, hempty, List.nil_append]
  rw [acceptSeg_applies c hempty hhead hdue, applyRecord_alone c (by rw [hjoin]) (by exact htail), hjoin]
  rfl

omit hs hdue htail in
/-- The queue and the waiting head are as they were before the record. -/
theorem applied_track : { (n.applied p).track with arrival := [], headWaiting := false } = (n.applied p).track :=
  congrArg₂ (fun a b => ({ (n.applied p).track with arrival := a, headWaiting := b } : Tracking)) hempty.symm hhead.symm

/-- A record of neither weld nor tail applied at once in READY: it takes the trim profile on (R96, R134). -/
theorem acceptSeg_ready (hweld : p.flags.getLsbD 1 = false) : acceptSeg c p n = { n.applied p with
    sched := (n.sched.profileStep p.number).1
    gap := { n.gap with
      profileTrim := (n.sched.profileStep p.number).2.getD n.gap.profileTrim, waiting := none
      lastApplied := some (p.number, p.scheduleId.toNat) } } := by
  rw [acceptSeg_hands c hempty hhead hdue htail, handWeld_none c (by exact hweld), handOver_ready c (by exact hs)]
  exact congrArg (fun x => ({ n with
    sched := (n.sched.profileStep p.number).1
    gap := { n.gap with
      profileTrim := (n.sched.profileStep p.number).2.getD n.gap.profileTrim, waiting := none
      lastApplied := some (p.number, p.scheduleId.toNat) }
    track := x } : Node)) (applied_track hempty hhead)

/-- A weld applied at once in READY: the coil change, whose profile the weld's own number does not take on (R132,
R134). -/
theorem acceptSeg_ready_weld (hweld : p.flags.getLsbD 1 = true)
    (hvalid : ∀ x ∈ listFour n.sched.slots, ∀ r, x.record = some r → r.valid = true) :
    acceptSeg c p n = { n.applied p with
      dir := { n.dir with changed := ChangedFlags.clear }
      flt := n.flt.resetBudget
      sched := { n.sched with
        profile := some { weld := p.number, id := n.sched.activeId, nextEntry := 1 }
        coilChanges := satInc n.sched.coilChanges }
      gap := { n.gap with
        profileTrim := 0, waiting := none, lastApplied := some (p.number, p.scheduleId.toNat) } } := by
  have hstep : ({ n.sched with
      profile := some { weld := p.number, id := n.sched.activeId, nextEntry := 1 }
      coilChanges := satInc n.sched.coilChanges } : SchedStore).profileStep p.number = ({ n.sched with
        profile := some { weld := p.number, id := n.sched.activeId, nextEntry := 1 }
        coilChanges := satInc n.sched.coilChanges }, none) := profileStep_weld rfl hvalid
  rw [acceptSeg_hands c hempty hhead hdue htail, handWeld_ready c (by exact hs) (by exact hweld),
    handOver_ready c (by exact hs)]
  dsimp only [arrivalRecord, Node.applied]
  rw [hstep]
  exact congrArg (fun x => ({ n with
    dir := { n.dir with changed := ChangedFlags.clear }
    flt := n.flt.resetBudget
    sched := { n.sched with
      profile := some { weld := p.number, id := n.sched.activeId, nextEntry := 1 }
      coilChanges := satInc n.sched.coilChanges }
    gap := { n.gap with
      profileTrim := 0, waiting := none, lastApplied := some (p.number, p.scheduleId.toNat) }
    track := x } : Node)) (applied_track hempty hhead)

end Due

end Ready

/-- Settles O50: by the source, the stand state and the number; a record that is due at once is applied. -/
theorem segmentIsSequenced : Obligations.SegmentIsSequenced := by
  intro h p s hl hh n tr cnt up takes head q due0 due rec' joined inOrder waits
  have htaken : up → takes = true → receiveSeg s.settings h.source p s.node =
      sequenceCheck s.settings p n.segCounted := fun hup ht => receiveSeg_taken _ hup ht
  have hready : n.seq.stand = .ready → takes = true := by
    intro hs
    simp only [takes, hs, decide_true, Bool.true_or]
  have hjoined : ∀ k, joined k = { tr with
      arrival := q ++ [arrivalRecord p (dueBehind s.settings q p n)], expected := some (p.number + 1), counts := k
      headWaiting := if head then false else tr.headWaiting } := fun k => rfl
  have hbehind : head = false → ∀ k, joined k = { tr with
      arrival := tr.arrival ++ [arrivalRecord p (dueBehind s.settings tr.arrival p n)]
      expected := some (p.number + 1), counts := k } := by
    intro hhead k
    have hq : q = tr.arrival := if_neg (by rw [hhead]; exact Bool.false_ne_true)
    rw [hjoined, hq, if_neg (by rw [hhead]; exact Bool.false_ne_true)]
  have hlate : head = false → waits → tr.arrival ≠ [] ∨
      reaches n.meas.entryCount (dueBehind s.settings tr.arrival p n) = false := by
    intro hhead hwait
    have hq : q = tr.arrival := if_neg (by rw [hhead]; exact Bool.false_ne_true)
    have hwait : q ≠ [] ∨ reaches n.meas.entryCount (dueBehind s.settings q p n) = false := hwait
    rwa [hq] at hwait
  have horder : inOrder → head = false → tr.expected = none ∨ tr.expected = some p.number := by
    intro ho hhead
    obtain h | h := ho
    · rw [hhead] at h
      cases h
    · exact h
  have hnext : head = false → inOrder → tr.arrival = [] → sequenceCheck s.settings p n.segCounted =
      acceptSeg s.settings p n.segCounted := fun hhead ho hempty =>
    sequenceCheck_inOrder _ hhead (horder ho hhead) (by rw [show n.segCounted.track.arrival = [] from hempty]; decide)
  have hnow : head = false → tr.arrival = [] → reaches n.meas.entryCount due = true →
      reaches n.meas.entryCount (dueBehind s.settings [] p n) = true := by
    intro hhead hempty hdue
    have hq : q = [] := (if_neg (by rw [hhead]; exact Bool.false_ne_true)).trans hempty
    have hdue : reaches n.meas.entryCount (dueBehind s.settings q p n) = true := hdue
    rwa [hq] at hdue
  refine ⟨_, exec_segReceived h p hl hh, fun hup => ?_, fun hup ht => ?_, fun hup ht hhead hwait => ?_,
    fun hup ht hhead e he hd => ?_, fun hup ht hhead e he hd hfull => ?_, fun hup ht hhead ho hroom hwait => ?_,
    fun hup ht hhead e he hpos hd hroom hwait => ?_,
    fun hup hs hhead ho hempty hwaiting hweld htail hdue => ?_,
    fun hup hs hhead ho hempty hwaiting hlaw hweld htail hdue => ?_⟩
  · rw [receiveSeg_foreign _ hup]
    exact ⟨rfl, acted_quietly (Node.keepsBut_of_overlay rfl)⟩
  · rw [receiveSeg_unexpected _ hup ht]
    exact ⟨rfl, acted_quietly (Node.keepsBut_of_overlay rfl)⟩
  · have hq : q = [] := if_pos hhead
    have hearly : reaches n.meas.entryCount (dueBehind s.settings [] p n) = false := by
      obtain h | h := hwait
      · exact absurd hq h
      · rwa [show due = dueBehind s.settings q p n from rfl, hq] at h
    rw [htaken hup ht, sequenceCheck_head _ hhead, acceptSeg_waits _ (.inr (by exact hearly)), joinArrival_eq]
    refine ⟨?_, rfl, acted_quietly (Node.keepsBut_of_overlay rfl)⟩
    rw [hjoined, hq, if_pos hhead]
    rfl
  · rw [htaken hup ht, sequenceCheck_behind _ hhead (by exact he) hd]
    exact ⟨rfl, acted_quietly (Node.keepsBut_of_overlay rfl)⟩
  · rw [htaken hup ht, sequenceCheck_full _ hhead (by exact he) hd (by exact hfull)]
    obtain ⟨r, f, hraise⟩ := raise_correctable_rest s.settings n.segCounted (code := .arrivalFull) rfl
    refine ⟨(congrArg Node.track hraise).trans rfl, keepsBut_finish ?_ (by decide) (by decide),
      reports_raise rfl rfl rfl rfl rfl rfl⟩
    rw [hraise]
    exact Node.keepsBut_of_overlay rfl
  · rw [htaken hup ht, sequenceCheck_inOrder _ hhead (by exact horder ho hhead) (by exact hroom),
      acceptSeg_waits _ (by exact hlate hhead hwait), joinArrival_eq]
    exact ⟨(hbehind hhead _).symm, acted_quietly (Node.keepsBut_of_overlay rfl)⟩
  · rw [htaken hup ht, sequenceCheck_ahead _ hhead (by exact he) hpos hd (by exact hroom)]
    obtain ⟨r, f, hraise⟩ := raise_correctable_rest s.settings (n.segCounted.gapNoted (p.number - e).toNat)
      (code := .trackGap) rfl
    have hnote : noteGap s.settings (p.number - e).toNat n.segCounted =
        raise s.settings .trackGap (n.segCounted.gapNoted (p.number - e).toNat) := rfl
    rw [hnote, acceptSeg_waits _ (by rw [hraise]; exact hlate hhead hwait)]
    refine ⟨?_, keepsBut_finish ?_ (by decide) (by decide),
      reports_then (m := n.segCounted.gapNoted (p.number - e).toNat) rfl rfl rfl rfl rfl rfl rfl rfl⟩
    · rw [withNode_node, hraise, joinArrival_eq]
      exact (hbehind hhead _).symm
    · rw [hraise, joinArrival_eq]
      exact Node.keepsBut_of_overlay rfl
  · rw [htaken hup (hready hs), hnext hhead ho hempty, acceptSeg_ready _ (by exact hs) (by exact hempty)
      (by exact hwaiting) (by exact hnow hhead hempty hdue) htail hweld]
    refine ⟨_, _, profileStep_takes p.number n, rfl, rfl, profileStep_rest p.number n.sched, ?_⟩
    rw [profileStep_rest]
    exact acted_quietly (Node.keepsBut_of_overlay rfl)
  · rw [htaken hup (hready hs), hnext hhead ho hempty, acceptSeg_ready_weld _ (by exact hs) (by exact hempty)
      (by exact hwaiting) (by exact hnow hhead hempty hdue) htail hweld (by exact hlaw.1)]
    refine ⟨rfl, rfl, rfl, rfl, keepsBut_finish (Node.keepsBut_of_overlay rfl) (by decide) (by decide),
      fun hroom => ?_⟩
    rw [withNode_node, finish_quiet _ _ (by exact hroom.1) (by exact hroom.2.1)]
    exact ⟨rfl, rfl⟩

end Sys2Proof.Machine
end

section
/-! SUPPORT. The supervision timers (R109, R146, R147, R174), and requests that end with their REPLY (R52, R53). -/

namespace Sys2Proof.Machine

set_option Elab.async false

/-! ## A request that ends with its REPLY (R52, R53) -/

section EndEntry
variable (c : Settings) (p : ReqEntry → Bool) (st : Status) (v : List Byte) (n : Node)

/-- The node with the first request of a kind taken from the table. -/
def Node.unlisted (p : ReqEntry → Bool) (n : Node) : Node :=
  { n with dir := { n.dir with table := n.dir.table.eraseP p } }

/-- The REPLY that ends the first request of a kind, where the ring state admits it (R13, R52). -/
def endReplies : List OwnFrame :=
  if n.memb.ring.admits .reply then
    (n.dir.table.find? p).toList.map (fun e => replyFrame e.requester e.tag e.index st v)
  else []

variable {p n} in
theorem unlisted_of_none (h : n.dir.table.find? p = none) : n.unlisted p = n := by
  have hall : ∀ x ∈ n.dir.table, ¬ p x = true := by
    intro x hx
    simpa using List.find?_eq_none.mp h x hx
  rw [Node.unlisted, List.eraseP_of_forall_not hall]

/-- The end of a request takes it from the table, and touches the transmit side. -/
theorem endEntry_eq : ∃ r f, endEntry c p st v n = { n.unlisted p with ring := r, flt := f } := by
  unfold endEntry endEntryDeferred
  cases h : n.dir.table.find? p with
  | none =>
    rw [unlisted_of_none h]
    exact ⟨_, _, rfl⟩
  | some e => exact ⟨_, _, rfl⟩

theorem endEntry_room (hb : n.ring.sending.isSome = true) (hw : n.flt.raised = [])
    (hq : n.ring.insertQueue.length + (endReplies p st v n).length ≤ 16) : endEntry c p st v n = { n.unlisted p with
      ring := { n.ring with insertQueue := n.ring.insertQueue ++ endReplies p st v n } } := by
  unfold endReplies at hq ⊢
  unfold endEntry endEntryDeferred
  cases h : n.dir.table.find? p with
  | none =>
    rw [unlisted_of_none h, Option.toList_none, List.map_nil, ite_self, List.append_nil]
    exact settle_none _ _ hw
  | some e =>
    rw [h] at hq
    by_cases ha : n.memb.ring.admits .reply = true
    · rw [if_pos ha] at hq ⊢
      have hoffer := offer_room c (n.unlisted p) (replyFrame e.requester e.tag e.index st v) (by exact hb)
        (by exact Nat.lt_of_succ_le hq) (by exact ha) rfl
      refine (congrArg (settle c) hoffer).trans (settle_none _ _ ?_)
      exact hw
    · rw [if_neg ha, List.append_nil]
      exact offerNow_refused c (n := n.unlisted p) (o := replyFrame e.requester e.tag e.index st v)
        (Bool.eq_false_iff.mpr ha) hw

end EndEntry

/-! ## The move timer (R109, R146) -/

/-- A reference placed counts a move as started or superseded only (R145). -/
theorem placed_timedOut (c : NodeConfig) (k : Nat) (g : GapControl) :
    (g.placed c k).moves.timedOut = g.moves.timedOut := by
  unfold GapControl.placed
  dsimp only
  split
  · rfl
  · split
    · rfl
    · split
      · rfl
      · rfl

section Move
variable (c : Settings) {n : Node}

/-- The node whose move has timed out. -/
def Node.moveOut (n : Node) : Node := { n with gap := n.gap.timeOutMove }

theorem moveExpiry_stays (hno : ¬ (n.gap.supervision = .moving ∧ n.gap.timer = some 0)) : moveExpiry c n = n := by
  refine if_neg ?_
  rwa [Bool.and_eq_true, decide_eq_true_eq, timerOut_iff]

theorem moveExpiry_runs (hruns : n.gap.supervision = .moving ∧ n.gap.timer = some 0) :
    moveExpiry c n = failPreset c (raise c .moveTimeout n.moveOut) := by
  refine if_pos ?_
  rwa [Bool.and_eq_true, decide_eq_true_eq, timerOut_iff]

theorem cls_moveTimeout_idle {st : StandState} (h : st.strip = false) : FaultCode.moveTimeout.cls st = .correctable := by
  simp [FaultCode.cls, h]

theorem cls_moveTimeout_strip {st : StandState} (h : st.strip = true) : FaultCode.moveTimeout.cls st = .fatal := by
  simp [FaultCode.cls, h]

theorem failPreset_apart (hs : n.seq.stand ≠ .preset) : failPreset c n = n := if_neg hs

theorem failPreset_fails (hs : n.seq.stand = .preset) :
    failPreset c n = endEntry c isPreset .failed [] (enterQuiet c n) := if_pos hs

theorem retractExpiry_stays (hno : ¬ (n.gap.supervision = .retracting ∧ n.gap.timer = some 0)) :
    retractExpiry c n = n := by
  refine if_neg ?_
  rwa [Bool.and_eq_true, decide_eq_true_eq, timerOut_iff]

theorem retractExpiry_runs (hruns : n.gap.supervision = .retracting ∧ n.gap.timer = some 0) :
    retractExpiry c n = raise c .retractTimeout { n with gap := { n.gap with
      supervision := .retractFailed, timer := none } } := by
  refine if_pos ?_
  rwa [Bool.and_eq_true, decide_eq_true_eq, timerOut_iff]

end Move

/-- An actuator fault in TRIPPED or LOCKOUT leaves the stand in LOCKOUT (R174). -/
theorem standAfter_stopped {actuator : Bool} {st : StandState} (ha : actuator = true) (hs : st.stopped = true) :
    standAfter actuator st = .lockout := by
  subst ha
  revert hs
  cases st <;> decide

section MoveRow
variable {s : State}

/-- A move that times out in PRESET: the stand enters QUIET, and the command is answered FAILED (R109). -/
theorem moveTimeout_quiets (hs : s.node.seq.stand = .preset) :
    let n := s.node
    let t := s.withNode (finish s.settings (failPreset s.settings (raise s.settings .moveTimeout n.moveOut)))
    n.moveOut.quietsTo s.settings t.node ∧
      t.node.dir = { table := n.dir.table.eraseP isPreset, changed := ChangedFlags.clear } ∧
      s.keepsBut [.seq, .memb, .dir, .meas, .track, .sched, .gap, .ring, .flt] t ∧
      (s.roomFor 2 →
        t.node.flt = n.flt.after s.settings (eventOf .moveTimeout n) ∧
        t.node.ring = { n.ring with
          insertQueue := queueAfter s.settings n.memb.ring (eventOf .moveTimeout n) n.flt
              n.ring.insertQueue ++ endReplies isPreset .failed [] n }) := by
  intro n t
  have hidle : FaultCode.moveTimeout.cls n.moveOut.seq.stand = .correctable :=
    cls_moveTimeout_idle (by rw [show n.moveOut.seq.stand = .preset from hs]; rfl)
  have hnot : n.seq.stand ≠ .tripped := by
    rw [hs]
    exact StandState.noConfusion
  obtain ⟨r, f, hraise⟩ := raise_correctable_rest s.settings n.moveOut hidle
  obtain ⟨r', f', hend⟩ := endEntry_eq s.settings isPreset .failed []
    (enterQuiet s.settings { n.moveOut with ring := r, flt := f })
  have hwhole : failPreset s.settings (raise s.settings .moveTimeout n.moveOut) =
      { (enterQuiet s.settings { n.moveOut with ring := r, flt := f }).unlisted isPreset with
        ring := r', flt := f' } := by
    rw [hraise, failPreset_fails _ (by exact hs), hend]
  rw [enterQuiet_eq s.settings (by exact hnot)] at hwhole
  refine ⟨⟨congrArg Node.seq hwhole, congrArg Node.memb hwhole, ?_, congrArg Node.meas hwhole,
    congrArg Node.track hwhole, congrArg Node.sched hwhole, congrArg Node.gap hwhole⟩, congrArg Node.dir hwhole,
    keepsBut_finish ?_ (by decide) (by decide), fun ⟨hb, hw, hq⟩ => ?_⟩
  · exact congrArg (fun x => x.dir.changed) hwhole
  · rw [hwhole]
    exact Node.keepsBut_of_overlay rfl
  · have hraised := raise_room s.settings n.moveOut .moveTimeout hidle hb hw
      (show n.ring.insertQueue.length < 16 from Nat.lt_of_succ_lt_succ (Nat.lt_succ_of_lt hq))
    have hlen := length_queueAfter s.settings n.memb.ring (eventOf .moveTimeout n) n.flt n.ring.insertQueue
    have hone : (endReplies isPreset .failed [] n).length ≤ 1 := by
      unfold endReplies
      split
      · cases n.dir.table.find? isPreset <;> simp
      · exact Nat.zero_le 1
    have hq : n.ring.insertQueue.length + 2 ≤ 16 := hq
    change (finish s.settings (failPreset s.settings (raise s.settings .moveTimeout n.moveOut))).flt = _ ∧
      (finish s.settings (failPreset s.settings (raise s.settings .moveTimeout n.moveOut))).ring = _
    rw [hraised, failPreset_fails _ (by exact hs), enterQuiet_eq s.settings (by exact hnot),
      endEntry_room _ _ _ _ _ (by exact hb) rfl (show (queueAfter s.settings n.memb.ring (eventOf .moveTimeout n)
        n.flt n.ring.insertQueue).length + (endReplies isPreset .failed [] n).length ≤ 16 by omega),
      finish_quiet _ _ (by exact hb) rfl]
    exact ⟨rfl, rfl⟩

end MoveRow

/-- Settles O57: by whether the timer has run out, and the stand state. -/
theorem supervisionTimersExpire : Obligations.SupervisionTimersExpire := by
  refine ⟨?_, ?_⟩
  · intro s hl n out runs
    have hexec : exec .moveTimerExpiry s = s.act (fun c n => moveExpiry c n) := rfl
    refine ⟨_, hexec.trans (State.act_live _ _ hl), rfl, rfl, rfl, fun hno => ?_, fun hruns hp hs => ?_,
      fun hruns hp => ?_, fun hruns hs hu => ?_⟩
    · rw [moveExpiry_stays _ hno]
      exact acted_quietly (Node.keepsBut_of_overlay rfl)
    · have hidle : FaultCode.moveTimeout.cls n.moveOut.seq.stand = .correctable := cls_moveTimeout_idle hs
      obtain ⟨r, f, hraise⟩ := raise_correctable_rest s.settings n.moveOut hidle
      have hstand : (raise s.settings .moveTimeout n.moveOut).seq.stand ≠ .preset := by
        rw [hraise]
        exact hp
      rw [moveExpiry_runs _ hruns, failPreset_apart _ hstand]
      refine ⟨congrArg Node.gap hraise, keepsBut_finish ?_ (by decide) (by decide),
        reports_raise hidle rfl rfl rfl rfl rfl⟩
      rw [hraise]
      exact Node.keepsBut_of_overlay rfl
    · obtain ⟨hquiets, hdir, hkeeps, hroom⟩ := moveTimeout_quiets (s := s) hp
      rw [moveExpiry_runs _ hruns]
      obtain ⟨v, x, y, z, hplaced⟩ := placed_rest s.settings.config s.settings.config.standbyGap
        ({ out with
          base := some s.settings.config.standbyGap, ff := 0, monitor := 0, profileTrim := 0
          clampMark := false, waiting := none } : GapControl)
      obtain ⟨_, _, _, _, _, _, hgap⟩ := id hquiets
      have hrefer := hgap.trans (refer_eq_placed _ _ _)
      have hparts := hrefer.trans hplaced
      exact ⟨hquiets, hdir, (congrArg GapControl.base hparts).trans rfl,
        (congrArg GapControl.reference hparts).trans rfl,
        (congrArg (fun g => g.moves.timedOut) hrefer).trans (placed_timedOut _ _ _), hkeeps, hroom⟩
    · have hfatal : FaultCode.moveTimeout.cls n.moveOut.seq.stand = .fatal := cls_moveTimeout_strip hs
      have hstand : (raise s.settings .moveTimeout n.moveOut).seq.stand ≠ .preset := by
        rw [(raise_tripsOn s.settings n.moveOut .moveTimeout hu (.inl hfatal)).1.1]
        exact StandState.noConfusion
      rw [moveExpiry_runs _ hruns, failPreset_apart _ hstand]
      exact tripsByFault_raise (m := n.moveOut) hu (.inl hfatal) rfl rfl
  · intro s hl n runs
    have hexec : exec .retractTimerExpiry s = s.act (fun c n => retractExpiry c n) := rfl
    refine ⟨_, hexec.trans (State.act_live _ _ hl), rfl, rfl, rfl, fun hno => ?_, fun hruns hs => ?_⟩
    · rw [retractExpiry_stays _ hno]
      exact acted_quietly (Node.keepsBut_of_overlay rfl)
    · rw [retractExpiry_runs _ hruns]
      obtain ⟨r, f, hraise⟩ := raise_stopped s.settings .retractTimeout (n := { n with gap := { n.gap with
        supervision := .retractFailed, timer := none } }) hs rfl
      have hlock : standAfter FaultCode.retractTimeout.actuator n.seq.stand = .lockout := standAfter_stopped rfl hs
      refine ⟨(congrArg Node.seq hraise).trans (congrArg (fun x => ({ n.seq with stand := x } : Sequencer)) hlock), congrArg Node.gap hraise, keepsBut_finish ?_ (by decide) (by decide),
        repeatsFault_raise (m := { n with gap := { n.gap with supervision := .retractFailed, timer := none } })
          hs rfl rfl rfl⟩
      rw [hraise]
      exact Node.keepsBut_of_overlay rfl

end Sys2Proof.Machine
end

section
/-! SUPPORT. Reassembly and the acceptance of a record (R134, R138 to R140, R145): what of the Gap Controller they steer,
and where the reference comes to stand. -/

namespace Sys2Proof.Machine

set_option Elab.async false

/-! ## What a reassembly steers -/

/-- From a Gap Controller to a Gap Controller, only the demand, the reference and the move supervision change. -/
def GapControl.steersTo (g g' : GapControl) : Prop := g' = { g with
  unclamped := g'.unclamped, clampMark := g'.clampMark, reference := g'.reference, supervision := g'.supervision
  target := g'.target, timer := g'.timer, moves := g'.moves }

theorem GapControl.steersTo_refl (g : GapControl) : g.steersTo g := rfl

theorem GapControl.steersTo.trans {g g' g'' : GapControl} (h : g.steersTo g') (h' : g'.steersTo g'') :
    g.steersTo g'' := by
  unfold GapControl.steersTo at h h' ⊢
  rw [h'.trans (congrArg (fun x : GapControl => ({ x with
    unclamped := g''.unclamped, clampMark := g''.clampMark, reference := g''.reference
    supervision := g''.supervision, target := g''.target, timer := g''.timer, moves := g''.moves } : GapControl)) h)]

theorem refer_steers (c : NodeConfig) (k : Nat) (g : GapControl) : g.steersTo (g.refer c k) := by
  unfold GapControl.refer
  split
  · rfl
  · dsimp only
    split
    · split
      · rfl
      · rfl
    · split
      · rfl
      · rfl
    · rfl

section Reassembly
variable (c : Settings) (n : Node)

theorem reassemble_steers : n.gap.steersTo (reassemble c n).gap := by
  unfold reassemble
  split
  next => rfl
  next b _ =>
    split
    next =>
      dsimp only
      split
      next => rfl
      next r _ =>
        exact GapControl.steersTo.trans (g' := { n.gap with
          unclamped := n.gap.demand n.seq.stand n.seq.holds.any b
          clampMark := clampNeeded r (n.gap.demand n.seq.stand n.seq.holds.any b) }) rfl (refer_steers _ _ _)
    next => exact refer_steers _ _ _

/-- A reassembly steers the Gap Controller, and may report; nothing else changes. -/
theorem reassembleNow_steers : ∃ g r f, reassembleNow c n = { n with gap := g, ring := r, flt := f } ∧
    n.gap.steersTo g := by
  obtain ⟨g, r, f, h⟩ := reassembleNow_rest c n
  have hgap : (reassembleNow c n).gap = g := congrArg Node.gap h
  have hsame : (reassembleNow c n).gap = (reassemble c n).gap := settle_gap _ _
  refine ⟨g, r, f, h, ?_⟩
  rw [← hgap, hsame]
  exact reassemble_steers c n

theorem reassembleUnheld_steers : ∃ g r f, reassembleUnheld c n = { n with gap := g, ring := r, flt := f } ∧
    n.gap.steersTo g := by
  unfold reassembleUnheld
  split
  · exact reassembleNow_steers c n
  · exact ⟨n.gap, n.ring, n.flt, rfl, rfl⟩

variable {n} in
/-- The reference that a reassembly under an ACTIVE schedule places (R139). -/
theorem reassembleNow_reference {b id : Nat} {r : Schedule} (hb : n.gap.base = some b)
    (ha : n.sched.active = some (id, r)) (hs : n.seq.stand.strip = true) :
    ((reassembleNow c n).gap.reference : Int) =
      clamped r (n.gap.demand n.seq.stand n.seq.holds.any b) := by
  obtain ⟨v, x, y, z, hplaced⟩ := placed_rest c.config
    (clamped r (n.gap.demand n.seq.stand n.seq.holds.any b)).toNat { n.gap with
      unclamped := n.gap.demand n.seq.stand n.seq.holds.any b
      clampMark := clampNeeded r (n.gap.demand n.seq.stand n.seq.holds.any b) }
  have hgap : (reassembleNow c n).gap.reference =
      (clamped r (n.gap.demand n.seq.stand n.seq.holds.any b)).toNat :=
    congrArg GapControl.reference ((reassembleNow_gap c hb ha hs).trans hplaced)
  rw [hgap]
  refine Int.toNat_of_nonneg ?_
  exact (Int.natCast_nonneg r.gapMin).trans (le_max_left _ _)

end Reassembly

/-! ## The acceptance of a record (R134, R140) -/

section Accept
variable (c : Settings) (r : ArrivalRecord) (ff : Int) (n : Node)

/-- The profile trim after a segment number (R134). -/
def Node.trimAt (number : Half) (n : Node) : Int := (n.sched.profileStep number).2.getD n.gap.profileTrim

/-- The profile's state after a segment number (R134). -/
def Node.runAt (number : Half) (n : Node) : Option ProfilePos := (n.sched.profileStep number).1.profile

theorem profileTakes_at (number : Half) : n.profileTakes number (n.runAt number) (n.trimAt number) :=
  profileStep_takes number n

/-- The node with the head of the queue accepted, before the demand is reassembled (R140). -/
def Node.accepted : Node := { n with
  sched := { n.sched with profile := n.runAt r.number }
  gap := { n.gap with
    ff := ff, profileTrim := n.trimAt r.number, waiting := none, lastApplied := some (r.number, r.scheduleId) }
  track := { n.track with arrival := n.track.arrival.drop 1, headWaiting := false } }

theorem accept_eq : accept c r ff n =
    if ff ≠ n.gap.ff || n.trimAt r.number ≠ n.gap.profileTrim then reassembleUnheld c (n.accepted r ff)
    else n.accepted r ff := by
  unfold Node.accepted Node.runAt
  rw [← profileStep_rest]
  rfl

/-- An acceptance steers the Gap Controller beyond the terms that it sets, and may report; nothing else. -/
theorem accept_steers : ∃ g rg f, accept c r ff n = { n.accepted r ff with gap := g, ring := rg, flt := f } ∧
    (n.accepted r ff).gap.steersTo g := by
  rw [accept_eq]
  split
  · exact reassembleUnheld_steers c _
  · exact ⟨(n.accepted r ff).gap, n.ring, n.flt, rfl, rfl⟩

variable {n ff}

/-- Without a term that acts and has changed the demand stays (R139). -/
theorem accept_still (h : ¬ (n.seq.stand.strip = true ∧ n.seq.holds.any = false ∧
    (ff ≠ n.gap.ff ∨ n.trimAt r.number ≠ n.gap.profileTrim))) : accept c r ff n = n.accepted r ff := by
  rw [accept_eq]
  split
  next hchanged =>
    simp only [Bool.or_eq_true, decide_eq_true_eq] at hchanged
    refine if_neg fun hact => h ?_
    rw [Bool.and_eq_true, Bool.not_eq_true'] at hact
    exact ⟨hact.1, hact.2, hchanged⟩
  next => rfl

/-- A term that acts and has changed reassembles the demand (R139). -/
theorem accept_moves (hs : n.seq.stand.strip = true) (hfree : n.seq.holds.any = false)
    (hchanged : ff ≠ n.gap.ff ∨ n.trimAt r.number ≠ n.gap.profileTrim) :
    accept c r ff n = reassembleNow c (n.accepted r ff) := by
  rw [accept_eq, if_pos (by simpa only [Bool.or_eq_true, decide_eq_true_eq] using hchanged)]
  refine reassembleUnheld_acts c ?_
  rw [show (n.accepted r ff).seq = n.seq from rfl, hs, hfree]
  rfl

/-- The reference after an acceptance that reassembles the demand (R106, R139). -/
theorem accept_reference (hs : n.seq.stand.strip = true) (hfree : n.seq.holds.any = false)
    (hchanged : ff ≠ n.gap.ff ∨ n.trimAt r.number ≠ n.gap.profileTrim) {id b : Nat} {sc : Schedule}
    (ha : n.sched.active = some (id, sc)) (hb : n.gap.base = some b) :
    ((accept c r ff n).gap.reference : Int) = clamped sc ((b : Int) +
      (if n.seq.stand = .threading then 0 else ff + n.gap.monitor) + (n.gap.gapTrim + n.trimAt r.number)) := by
  rw [accept_moves c r hs hfree hchanged, reassembleNow_reference c (n := n.accepted r ff) hb ha hs,
    demand_eq_unheldDemand (n.accepted r ff) b hs hfree]
  rfl

end Accept

end Sys2Proof.Machine
end

section
/-! SUPPORT. The ends of the parameter operations (R52, R97, R141, R150 to R153). -/

namespace Sys2Proof.Machine

set_option Elab.async false

/-! ## Reports and replies one after the other -/

section Sent
variable {s : State} {m : Node}

/-- A CORRECTABLE fault raised where nothing has joined yet. -/
theorem raise_sent {code : FaultCode} (hm : s.sent [] m) (hc : code.cls m.seq.stand = .correctable)
    (hroom : s.roomFor 1) (hring : m.memb.ring = s.node.memb.ring) :
    (s.afterReport (eventOf code m)).sent [] (raise s.settings code m) := by
  obtain ⟨hb, hw, hq⟩ := hroom
  obtain ⟨hflt, hr⟩ := hm
  rw [List.append_nil] at hr
  have hr : m.ring = s.node.ring := hr
  rw [raise_room _ _ _ hc (by rw [hr]; exact hb) (by rw [hflt]; exact hw)
    (by rw [hr]; exact Nat.lt_of_succ_le hq), hflt, hr, hring]
  exact ⟨rfl, by rw [List.append_nil]; rfl⟩

/-- REPLYs offered one after the other, where the ring state admits them. -/
theorem State.sent.replies {c : Settings} {fr : ReqEntry → OwnFrame} (hk : ∀ e, (fr e).kind = .reply)
    (hf : ∀ e, (fr e).fatal = false) : ∀ (es : List ReqEntry) (m : Node) (fs : List OwnFrame), s.sent fs m →
    s.roomFor (fs ++ if m.memb.ring.admits .reply then es.map fr else []).length →
    s.sent (fs ++ if m.memb.ring.admits .reply then es.map fr else [])
      (es.foldl (fun m e => Machine.offerNow c (fr e) m) m) := by
  intro es
  induction es with
  | nil =>
    intro m fs hs _
    rw [List.map_nil, ite_self, List.append_nil]
    exact hs
  | cons e es ih =>
    intro m fs hs hr
    rw [List.foldl_cons]
    by_cases ha : m.memb.ring.admits .reply = true
    · rw [if_pos ha] at hr ⊢
      have hsplit : fs ++ (e :: es).map fr = (fs ++ [fr e]) ++ es.map fr := by
        rw [List.map_cons, List.append_assoc, List.singleton_append]
      rw [hsplit] at hr ⊢
      have hfirst : s.sent (fs ++ [fr e]) (Machine.offerNow c (fr e) m) :=
        hs.offerNow (hr.le (by rw [List.length_append (bs := es.map fr)]; exact Nat.le_add_right _ _))
          (by rw [hk]; exact ha) (hf e)
      have hsame : (Machine.offerNow c (fr e) m).memb.ring.admits .reply = true := ha
      have hrest := ih _ _ hfirst
      rw [if_pos hsame] at hrest
      exact hrest hr
    · have hno : m.memb.ring.admits (fr e).kind = false := by rw [hk]; exact Bool.eq_false_iff.mpr ha
      have hrest := ih m fs hs
      rw [if_neg ha] at hr hrest ⊢
      rw [offerNow_refused c hno (hs.waits (hr.le (by rw [List.append_nil])))]
      exact hrest hr

/-- REPLYs offered one after the other touch the transmit side only. -/
theorem replies_rest (c : Settings) (fr : ReqEntry → OwnFrame) (es : List ReqEntry) : ∀ m : Node, ∃ r f,
    es.foldl (fun m e => offerNow c (fr e) m) m = { m with ring := r, flt := f } := by
  induction es with
  | nil => exact fun m => ⟨m.ring, m.flt, rfl⟩
  | cons e es ih =>
    intro m
    obtain ⟨r, f, h⟩ := ih (offerNow c (fr e) m)
    exact ⟨r, f, h⟩

end Sent

/-! ## The readers of a fill (R52) -/

section Readers
variable (c : Settings) (t : CoefTag) (got : Option CoefRecord) (n : Node)

/-- The REPLY to a reader that waits on a fill. -/
def readReply (got : Option CoefRecord) (e : ReqEntry) : OwnFrame :=
  match got with
  | some r => replyFrame e.requester e.tag e.index .done r.value
  | none => replyFrame e.requester e.tag e.index .failed []

theorem readReply_kind (e : ReqEntry) : (readReply got e).kind = .reply := by cases got <;> rfl

theorem readReply_fatal (e : ReqEntry) : (readReply got e).fatal = false := by cases got <;> rfl

/-- The node with the readers of a fill taken from the table. -/
def Node.readersGone (t : CoefTag) (n : Node) : Node :=
  { n with dir := { n.dir with table := n.dir.table.filter (fun e => !readsTag t e) } }

theorem completeReads_eq : completeReads c t got n =
    (n.dir.table.filter (readsTag t)).foldl (fun m e => offerNow c (readReply got e) m) (n.readersGone t) := by
  cases got <;> rfl

theorem completeReads_rest : ∃ r f, completeReads c t got n = { n.readersGone t with ring := r, flt := f } := by
  rw [completeReads_eq]
  exact replies_rest _ _ _ _

variable {n} in
theorem completeReads_sent {s : State} (hs : s.sent [] n)
    (hr : s.roomFor (if n.memb.ring.admits .reply then
      (n.dir.table.filter (readsTag t)).map (readReply got) else []).length) :
    s.sent (if n.memb.ring.admits .reply then (n.dir.table.filter (readsTag t)).map (readReply got) else [])
      (completeReads c t got n) := by
  rw [completeReads_eq]
  exact State.sent.replies (s := s) (readReply_kind got) (readReply_fatal got) _ (n.readersGone t) [] hs hr

end Readers

/-! ## The Gap Controller at an operation's end (R150 to R153) -/

section Ends
variable {g : GapControl} {ops : List ParamOp}

/-- The queue's next head enters service with 20 ms. -/
def GapControl.serves (ops : List ParamOp) (g : GapControl) : GapControl :=
  { g with queue := ops, opTimer := if ops = [] then none else some 20 }

theorem opTimer_eq (q : List ParamOp) : (if q.isEmpty then none else some 20 : Option Nat) =
    if q = [] then none else some 20 := by
  cases q <;> rfl

theorem endOperation_idle {op : ParamOp} (hq : g.queue = op :: ops) (hw : g.waiting = none) :
    g.endOperation = g.serves ops := by
  simp only [GapControl.endOperation, hq, hw, List.drop_succ_cons, List.drop_zero, Option.map_none, opTimer_eq]
  rw [GapControl.serves, ← hw]

/-- A wanted fill joins the tail as the operation in service ends (R141, R153). -/
theorem endOperation_wanted {op : ParamOp} {w : Waiting} (hq : g.queue = op :: ops) (hw : g.waiting = some w)
    (hwant : w.wanted = true) : g.endOperation = { g with
      queue := ops ++ [.fill w.tag], opTimer := some 20, waiting := some { w with wanted := false } } := by
  have hfull : ops ++ [ParamOp.fill w.tag] ≠ [] := List.append_ne_nil_of_right_ne_nil _ (List.cons_ne_nil _ _)
  simp only [GapControl.endOperation, hq, hw, hwant, List.drop_succ_cons, List.drop_zero, Option.map_some, if_true,
    opTimer_eq, if_neg hfull]

theorem endOperation_waits {op : ParamOp} {w : Waiting} (hq : g.queue = op :: ops) (hw : g.waiting = some w)
    (hwant : w.wanted = false) : g.endOperation = g.serves ops := by
  have hsame : ({ w with wanted := false } : Waiting) = w := by rw [← hwant]
  simp only [GapControl.endOperation, hq, hw, hwant, List.drop_succ_cons, List.drop_zero, Option.map_some, opTimer_eq,
    Bool.false_eq_true, if_false, hsame]
  rw [GapControl.serves, ← hw]

end Ends

/-! ## The ends, where no application waits -/

section Unwaited
variable (c : Settings) {n : Node} {tag : CoefTag} {ops : List ParamOp} {got : Option CoefRecord}

theorem fillEnded_unwaited (hw : n.gap.waiting = none) : fillEnded c tag got n = n := by
  simp only [fillEnded, hw]

/-- The outcome of a fill on which no application waits (R150, R151). -/
def GapControl.outcome (tag : CoefTag) (got : Option CoefRecord) (g : GapControl) : GapControl :=
  match got with
  | some r => { g with
      cache := g.cache.set ((tag.pclass + tag.band) % 8)
        (if (g.cache.getD ((tag.pclass + tag.band) % 8) CacheSet.invalid).mru1 then
          { way0 := some r, way1 := (g.cache.getD ((tag.pclass + tag.band) % 8) CacheSet.invalid).way1, mru1 := false }
         else
          { way0 := (g.cache.getD ((tag.pclass + tag.band) % 8) CacheSet.invalid).way0, way1 := some r, mru1 := true })
      counts := { g.counts with fillsInstalled := satInc g.counts.fillsInstalled } }
  | none => { g with counts := { g.counts with fillsFailed := satInc g.counts.fillsFailed } }

theorem fillOutcome_unwaited {g : GapControl} (hw : g.waiting = none) (ht : ∀ r, got = some r → r.tag = tag) :
    g.fillOutcome tag got = g.outcome tag got := by
  cases got with
  | none => rfl
  | some r =>
    obtain rfl := ht r rfl
    have hinstall : (g.install r).waiting = none := hw
    simp only [GapControl.fillOutcome, hinstall]
    rfl

/-- A fill's end, no application waiting: the outcome, the next operation and the readers. -/
theorem endFill_unwaited (hq : n.gap.queue = .fill tag :: ops) (hw : n.gap.waiting = none)
    (ht : ∀ r, got = some r → r.tag = tag) : endFill c tag got n =
      completeReads c tag got { n with gap := (n.gap.outcome tag got).serves ops } := by
  have hqueue : (n.gap.outcome tag got).queue = .fill tag :: ops := by cases got <;> exact hq
  have hwait : (n.gap.outcome tag got).waiting = none := by cases got <;> exact hw
  unfold endFill tellWaiters
  rw [fillOutcome_unwaited hw ht, endOperation_idle hqueue hwait, fillEnded_unwaited c (by exact hwait)]

/-- The Gap Controller once the valid copy of a tag has been replaced (R153). -/
def GapControl.copied (tag : CoefTag) (w : Option CoefRecord) (g : GapControl) : GapControl := { g with
  cache := g.cache.set ((tag.pclass + tag.band) % 8)
    ((g.cache.getD ((tag.pclass + tag.band) % 8) CacheSet.invalid).update tag w) }

theorem updateCopy_eq (w : Option CoefRecord) (g : GapControl) : g.updateCopy tag w = g.copied tag w := rfl

theorem endWrite_unwaited {r : CoefRecord} {e : Bool} (hq : n.gap.queue = .write r e :: ops)
    (hw : n.gap.waiting = none) : endWrite c r e n =
      endWriteEntry c r.tag e .done { n with gap := (n.gap.copied r.tag (some r)).serves ops } := by
  unfold endWrite
  rw [updateCopy_eq, endOperation_idle (by exact hq) (by exact hw)]

theorem paramTimeout_fill (hq : n.gap.queue = .fill tag :: ops) (hw : n.gap.waiting = none)
    (ho : n.gap.opTimer = some 0) : paramTimeout c n = completeReads c tag none
      (raise c .paramTimeout { n with gap := (n.gap.outcome tag none).serves ops }) := by
  have hout : timerOut n.gap.opTimer = true := (timerOut_iff _).mpr ho
  obtain ⟨r, f, hraise⟩ := raise_correctable_rest c { n with gap := (n.gap.outcome tag none).serves ops }
    (code := .paramTimeout) rfl
  simp only [paramTimeout, hout, hq]
  unfold timeOutFill tellWaiters
  rw [fillOutcome_unwaited hw (fun _ h => by cases h), endOperation_idle (by exact hq) (by exact hw),
    fillEnded_unwaited c (by rw [hraise]; exact hw)]

theorem paramTimeout_write {r : CoefRecord} {e : Bool} (hq : n.gap.queue = .write r e :: ops)
    (hw : n.gap.waiting = none) (ho : n.gap.opTimer = some 0) : paramTimeout c n =
      endWriteEntry c r.tag e .failed
        (raise c .paramTimeout { n with gap := (n.gap.copied r.tag none).serves ops }) := by
  have hout : timerOut n.gap.opTimer = true := (timerOut_iff _).mpr ho
  simp only [paramTimeout, hout, hq]
  unfold timeOutWrite
  rw [updateCopy_eq, endOperation_idle (by exact hq) (by exact hw)]

theorem paramTimeout_stays (h : n.gap.queue = [] ∨ n.gap.opTimer ≠ some 0) : paramTimeout c n = n := by
  obtain h | h := h
  · unfold paramTimeout
    rw [h]
    cases timerOut n.gap.opTimer <;> rfl
  · exact paramTimeout_running n c h

end Unwaited

/-! ## The rows -/

section Rows
variable {s : State} {tag : CoefTag} {ops : List ParamOp} {record : MemRead}

/-- The memory once a fill has read its record, and what it has read (R150, R151). -/
def filledMem (s : State) (tag : CoefTag) (record : MemRead) : List Host.Cell := memTake s.paramMem tag.offset 9 record

/-- The record that a fill delivers, where it is intact (R151). -/
def gotRecord (s : State) (tag : CoefTag) (record : MemRead) : Option CoefRecord :=
  recordRead tag (memReadBytes (filledMem s tag record) tag.offset 9)

theorem exec_fillComplete (hl : s.live) (hq : s.node.gap.queue = .fill tag :: ops) : exec (.fillComplete record) s =
    .next ({ s with paramMem := filledMem s tag record }.withNode (finish s.settings
      (endFill s.settings tag (gotRecord s tag record) s.node))) := by
  have hservice : fillInService s.node.gap = some tag := by simp only [fillInService, hq]
  have hexec : exec (.fillComplete record) s = execFillComplete record s := rfl
  rw [hexec]
  simp only [execFillComplete, hservice]
  exact State.act_live { s with paramMem := filledMem s tag record } _ hl

theorem exec_fillComplete_none (hno : ∀ tag ops, s.node.gap.queue ≠ .fill tag :: ops) :
    exec (.fillComplete record) s = .next s := by
  have hservice : fillInService s.node.gap = none := by
    unfold fillInService
    split
    next t ops h => exact absurd h (hno t ops)
    next => rfl
  have hexec : exec (.fillComplete record) s = execFillComplete record s := rfl
  rw [hexec]
  simp only [execFillComplete, hservice]

theorem exec_coefWriteComplete {r : CoefRecord} {e : Bool} (hl : s.live) (hq : s.node.gap.queue = .write r e :: ops) :
    exec .coefWriteComplete s =
      .next ({ s with paramMem := memWriteBytes s.paramMem r.tag.offset r.bytes }.withNode (finish s.settings
        (endWrite s.settings r e s.node))) := by
  have hexec : exec .coefWriteComplete s = execCoefWriteComplete s := rfl
  rw [hexec]
  simp only [execCoefWriteComplete, hq]
  exact State.act_live { s with paramMem := memWriteBytes s.paramMem r.tag.offset r.bytes } _ hl

theorem exec_coefWriteComplete_none (hno : ∀ r e ops, s.node.gap.queue ≠ .write r e :: ops) :
    exec .coefWriteComplete s = .next s := by
  have hexec : exec .coefWriteComplete s = execCoefWriteComplete s := rfl
  rw [hexec]
  unfold execCoefWriteComplete
  split
  next r e ops h => exact absurd h (hno r e ops)
  next => rfl

theorem exec_paramOpTimeout (hl : s.live) : exec .paramOpTimeout s =
    .next (s.withNode (finish s.settings (paramTimeout s.settings s.node))) := by
  have hexec : exec .paramOpTimeout s = s.act (fun c n => paramTimeout c n) := rfl
  rw [hexec, State.act_live _ _ hl]

/-- The transmit side after an event's report and frames behind it, by the end of a command. -/
theorem afterReport_ends {ev : FaultEvent} {fs : List OwnFrame} {m : Node} (hs : (s.afterReport ev).sent fs m)
    (hr : (s.afterReport ev).roomFor fs.length) : (finish s.settings m).flt = s.node.flt.after s.settings ev ∧
      (finish s.settings m).ring = { s.node.ring with
        insertQueue := queueAfter s.settings s.node.memb.ring ev s.node.flt s.node.ring.insertQueue ++ fs } := by
  rw [show finish s.settings m = m from hs.finish hr]
  exact hs

/-- A fill's end without an application: the readers answered. -/
theorem readersAnswered {got : Option CoefRecord} (g : GapControl) (ha : s.node.memb.ring.admits .reply = true) :
    s.offers ((s.node.dir.table.filter (readsTag tag)).map (readReply got))
      (s.withNode (finish s.settings (completeReads s.settings tag got { s.node with gap := g }))) := by
  refine offers_of_sent fun hroom => ?_
  have hsent := completeReads_sent s.settings tag got (s := s) (n := { s.node with gap := g }) State.sent_nil
  rw [if_pos (by exact ha)] at hsent
  exact hsent hroom

/-- The REPLY that ends a write's request, given room. -/
theorem writerAnswered {p : ReqEntry → Bool} {st : Status} (g : GapControl)
    (ha : s.node.memb.ring.admits .reply = true) :
    s.offers ((s.node.dir.table.find? p).toList.map (fun e => replyFrame e.requester e.tag e.index st []))
      (s.withNode (finish s.settings (endEntry s.settings p st [] { s.node with gap := g }))) := by
  have hframes : endReplies p st [] { s.node with gap := g } =
      (s.node.dir.table.find? p).toList.map (fun e => replyFrame e.requester e.tag e.index st []) := if_pos ha
  refine offers_of_sent fun hroom => ?_
  obtain ⟨hb, hw, hq⟩ := hroom
  rw [endEntry_room s.settings p st [] { s.node with gap := g } (by exact hb) (by exact hw)
    (by rw [hframes]; exact hq), hframes]
  exact ⟨rfl, rfl⟩

end Rows

end Sys2Proof.Machine
end

section
/-! SUPPORT. The ends of the parameter operations, where no application waits and where one does (R97, R141, R150 to
R153). -/

namespace Sys2Proof.Machine

set_option Elab.async false

/-! ## Timeouts (R153) -/

section Timeout
variable {s : State} {tag : CoefTag}

/-- PARAM_TIMEOUT raised at a node whose Gap Controller alone has changed. -/
theorem paramTimeout_raised (g : GapControl) : ∃ r f, raise s.settings .paramTimeout { s.node with gap := g } =
    { s.node with gap := g, ring := r, flt := f } := raise_correctable_rest _ _ rfl

theorem paramTimeout_sent (g : GapControl) (hroom : s.roomFor 1) :
    (s.afterReport (eventOf .paramTimeout s.node)).sent [] (raise s.settings .paramTimeout { s.node with gap := g }) :=
  raise_sent (m := { s.node with gap := g }) State.sent_nil rfl hroom rfl

/-- The readers of a fill that has timed out. -/
theorem readersFailed (g : GapControl) (hroom : s.roomFor (1 +
      ((s.node.dir.table.filter (readsTag tag)).map (readReply none)).length)) :
    let m := completeReads s.settings tag none (raise s.settings .paramTimeout { s.node with gap := g })
    (finish s.settings m).flt = s.node.flt.after s.settings (eventOf .paramTimeout s.node) ∧
      (finish s.settings m).ring = { s.node.ring with
        insertQueue := queueAfter s.settings s.node.memb.ring (eventOf .paramTimeout s.node)
            s.node.flt s.node.ring.insertQueue ++
          (if s.node.memb.ring.admits .reply then
            (s.node.dir.table.filter (readsTag tag)).map (readReply none) else []) } := by
  intro m
  obtain ⟨r, f, hraise⟩ := paramTimeout_raised (s := s) g
  have hsent := completeReads_sent s.settings tag none (paramTimeout_sent g (hroom.le (Nat.le_add_right _ _)))
  rw [show (raise s.settings .paramTimeout { s.node with gap := g }).memb.ring.admits .reply =
      s.node.memb.ring.admits .reply by rw [hraise],
    show (raise s.settings .paramTimeout { s.node with gap := g }).dir = s.node.dir by rw [hraise]] at hsent
  have hle : (if s.node.memb.ring.admits .reply then
      (s.node.dir.table.filter (readsTag tag)).map (readReply none) else []).length ≤
      ((s.node.dir.table.filter (readsTag tag)).map (readReply none)).length := by
    split
    · exact le_rfl
    · exact Nat.zero_le _
  have hroom' := (State.roomFor.afterReport (ev := eventOf .paramTimeout s.node) hroom).le hle
  exact afterReport_ends (hsent hroom') hroom'

/-- The request of a write that has timed out. -/
theorem writerFailed (p : ReqEntry → Bool) (g : GapControl) (hroom : s.roomFor (1 +
      ((s.node.dir.table.find? p).toList.map
        (fun e => replyFrame e.requester e.tag e.index .failed [])).length)) :
    let m := endEntry s.settings p .failed [] (raise s.settings .paramTimeout { s.node with gap := g })
    (finish s.settings m).flt = s.node.flt.after s.settings (eventOf .paramTimeout s.node) ∧
      (finish s.settings m).ring = { s.node.ring with
        insertQueue := queueAfter s.settings s.node.memb.ring (eventOf .paramTimeout s.node)
            s.node.flt s.node.ring.insertQueue ++
          (if s.node.memb.ring.admits .reply then (s.node.dir.table.find? p).toList.map
            (fun e => replyFrame e.requester e.tag e.index .failed []) else []) } := by
  intro m
  obtain ⟨r, f, hraise⟩ := paramTimeout_raised (s := s) g
  have hsent := paramTimeout_sent g (hroom.le (Nat.le_add_right _ _))
  have hframes : endReplies p .failed [] (raise s.settings .paramTimeout { s.node with gap := g }) =
      if s.node.memb.ring.admits .reply then (s.node.dir.table.find? p).toList.map
        (fun e => replyFrame e.requester e.tag e.index .failed []) else [] := by
    rw [hraise]
    rfl
  have hle : (endReplies p .failed [] (raise s.settings .paramTimeout { s.node with gap := g })).length ≤
      ((s.node.dir.table.find? p).toList.map (fun e => replyFrame e.requester e.tag e.index .failed [])).length := by
    rw [hframes]
    split
    · exact le_rfl
    · exact Nat.zero_le _
  have hroom' := (State.roomFor.afterReport (ev := eventOf .paramTimeout s.node) hroom).le hle
  have hempty := hroom'.le (Nat.zero_le _)
  have hend := endEntry_room s.settings p .failed [] (raise s.settings .paramTimeout { s.node with gap := g })
    (hsent.busy hempty) (hsent.waits hempty) (by
      rw [hsent.2, List.append_nil]
      exact hroom'.2.2)
  rw [← hframes]
  refine afterReport_ends ?_ hroom'
  rw [show m = _ from hend]
  exact ⟨hsent.1, by rw [hsent.2, List.append_nil]⟩

end Timeout

/-! ## Part 1: a fill's end, no application waiting -/

/-- A fill's end on which no application waits: what it makes of the blocks. -/
theorem fillEnd_acts {s : State} {tag : CoefTag} {ops : List ParamOp} {record : MemRead}
    (hl : s.live) (hq : s.node.gap.queue = .fill tag :: ops) (hw : s.node.gap.waiting = none) :
    let got := gotRecord s tag record
    ∃ t, exec (.fillComplete record) s = .next t ∧ t.settings = s.settings ∧
      t.paramMem = filledMem s tag record ∧ t.pending = s.pending ∧
      s.node.keepsBut [.dir, .gap, .ring, .flt] t.node ∧
      t.node.dir = { s.node.dir with table := s.node.dir.table.filter (fun e => !readsTag tag e) } ∧
      t.node.gap = (s.node.gap.outcome tag got).serves ops ∧
      (s.node.memb.ring.admits .reply = true →
        s.offers ((s.node.dir.table.filter (readsTag tag)).map (readReply got)) t) := by
  intro got
  have hend := endFill_unwaited s.settings hq hw (got := got) (fun r hr => tag_of_recordRead hr)
  obtain ⟨r, f, hreads⟩ := completeReads_rest s.settings tag got
    { s.node with gap := (s.node.gap.outcome tag got).serves ops }
  refine ⟨_, exec_fillComplete hl hq, rfl, rfl, rfl, ?_, ?_, ?_, fun ha => ?_⟩
  · rw [show endFill _ _ _ _ = _ from hend, hreads]
    exact Node.keepsBut_of_overlay rfl
  · exact (congrArg Node.dir (hend.trans hreads)).trans rfl
  · exact (congrArg Node.gap (hend.trans hreads)).trans rfl
  · rw [show endFill _ _ _ _ = _ from hend]
    exact readersAnswered _ ha

/-! ## Part 2: a write's end, and the timeouts -/

theorem endWriteEntry_entry (c : Settings) (t : CoefTag) (st : Status) (n : Node) :
    endWriteEntry c t true st n = endEntry c (writesTag t) st [] n := if_pos rfl

theorem endWriteEntry_aborted (c : Settings) (t : CoefTag) (st : Status) (n : Node) :
    endWriteEntry c t false st n = n := if_neg Bool.false_ne_true

/-- O58, the ends of a write and the timeouts, where no application waits. -/
theorem operationsEnd (s : State) (hl : s.live) :
    let g := s.node.gap
    let replaced (tag : CoefTag) (w : Option CoefRecord) : List CacheSet :=
      g.cache.set ((tag.pclass + tag.band) % 8)
        ((g.cache.getD ((tag.pclass + tag.band) % 8) CacheSet.invalid).update tag w)
    let writer (tag : CoefTag) (e : ReqEntry) : Bool := e.kind = .coefWrite && e.coef = some tag
    let timedOut (replies : List OwnFrame) (t : State) : Prop :=
      s.roomFor (1 + replies.length) →
        t.node.flt = s.node.flt.after s.settings (eventOf .paramTimeout s.node) ∧
        t.node.ring = { s.node.ring with
          insertQueue := queueAfter s.settings s.node.memb.ring (eventOf .paramTimeout s.node)
              s.node.flt s.node.ring.insertQueue ++
            (if s.node.memb.ring.admits .reply then replies else []) }
    ((∀ r e ops, g.queue ≠ .write r e :: ops) → exec .coefWriteComplete s = .next s) ∧
    (∀ r ops, g.queue = .write r true :: ops → g.waiting = none →
      ∃ t, exec .coefWriteComplete s = .next t ∧ t.settings = s.settings ∧
        t.paramMem = memWriteBytes s.paramMem r.tag.offset r.bytes ∧ t.pending = s.pending ∧
        s.node.keepsBut [.dir, .gap, .ring, .flt] t.node ∧
        t.node.gap = { g with
          cache := replaced r.tag (some r), queue := ops
          opTimer := if ops = [] then none else some 20 } ∧
        t.node.dir = { s.node.dir with table := s.node.dir.table.eraseP (writer r.tag) } ∧
        (s.node.memb.ring.admits .reply = true →
          s.offers ((s.node.dir.table.find? (writer r.tag)).toList.map
            (fun e => replyFrame e.requester e.tag e.index .done [])) t)) ∧
    (∀ r ops, g.queue = .write r false :: ops → g.waiting = none →
      ∃ t, exec .coefWriteComplete s = .next t ∧ t.settings = s.settings ∧
        t.paramMem = memWriteBytes s.paramMem r.tag.offset r.bytes ∧ t.pending = s.pending ∧
        s.node.keepsBut [.gap, .ring, .flt] t.node ∧
        t.node.gap = { g with
          cache := replaced r.tag (some r), queue := ops
          opTimer := if ops = [] then none else some 20 } ∧ s.offers [] t) ∧
    (g.queue = [] ∨ g.opTimer ≠ some 0 →
      ∃ t, exec .paramOpTimeout s = .next t ∧ s.keepsBut [.ring, .flt] t ∧ s.offers [] t) ∧
    (∀ tag ops, g.queue = .fill tag :: ops → g.waiting = none → g.opTimer = some 0 →
      ∃ t, exec .paramOpTimeout s = .next t ∧ s.keepsBut [.dir, .gap, .ring, .flt] t ∧
        t.node.gap = { g with
          queue := ops, opTimer := if ops = [] then none else some 20
          counts := { g.counts with fillsFailed := satInc g.counts.fillsFailed } } ∧
        t.node.dir = { s.node.dir with
          table := s.node.dir.table.filter (fun e => !(e.kind = .coefRead && e.coef = some tag)) } ∧
        timedOut ((s.node.dir.table.filter (fun e => e.kind = .coefRead && e.coef = some tag)).map
          (fun e => replyFrame e.requester e.tag e.index .failed [])) t) ∧
    (∀ r ops, g.queue = .write r true :: ops → g.waiting = none → g.opTimer = some 0 →
      ∃ t, exec .paramOpTimeout s = .next t ∧ s.keepsBut [.dir, .gap, .ring, .flt] t ∧
        t.node.gap = { g with
          cache := replaced r.tag none, queue := ops
          opTimer := if ops = [] then none else some 20 } ∧
        t.node.dir = { s.node.dir with table := s.node.dir.table.eraseP (writer r.tag) } ∧
        timedOut ((s.node.dir.table.find? (writer r.tag)).toList.map
          (fun e => replyFrame e.requester e.tag e.index .failed [])) t) ∧
    (∀ r ops, g.queue = .write r false :: ops → g.waiting = none → g.opTimer = some 0 →
      ∃ t, exec .paramOpTimeout s = .next t ∧ s.keepsBut [.gap, .ring, .flt] t ∧
        t.node.gap = { g with
          cache := replaced r.tag none, queue := ops
          opTimer := if ops = [] then none else some 20 } ∧ timedOut [] t) := by
  intro g replaced writer timedOut
  refine ⟨exec_coefWriteComplete_none, fun r ops hq hw => ?_, fun r ops hq hw => ?_, fun hno => ?_,
    fun tag ops hq hw ho => ?_, fun r ops hq hw ho => ?_, fun r ops hq hw ho => ?_⟩
  · refine ⟨_, exec_coefWriteComplete hl hq, rfl, rfl, rfl, ?_⟩
    rw [endWrite_unwaited _ hq hw, endWriteEntry_entry]
    obtain ⟨rg, f, hend⟩ := endEntry_eq s.settings (writesTag r.tag) .done []
      { s.node with gap := (g.copied r.tag (some r)).serves ops }
    refine ⟨?_, (congrArg Node.gap hend).trans rfl, (congrArg Node.dir hend).trans rfl, fun ha => writerAnswered _ ha⟩
    rw [hend]
    exact Node.keepsBut_of_overlay rfl
  · refine ⟨_, exec_coefWriteComplete hl hq, rfl, rfl, rfl, ?_⟩
    rw [endWrite_unwaited _ hq hw, endWriteEntry_aborted]
    exact ⟨Node.keepsBut_of_overlay rfl, rfl, offers_nil rfl rfl⟩
  · refine ⟨_, exec_paramOpTimeout hl, ?_⟩
    rw [paramTimeout_stays _ hno]
    exact acted_quietly (Node.keepsBut_of_overlay rfl)
  · refine ⟨_, exec_paramOpTimeout hl, ?_⟩
    rw [paramTimeout_fill _ hq hw ho]
    obtain ⟨rg, f, hraise⟩ := paramTimeout_raised (s := s) ((g.outcome tag none).serves ops)
    obtain ⟨rg', f', hreads⟩ := completeReads_rest s.settings tag none
      (raise s.settings .paramTimeout { s.node with gap := (g.outcome tag none).serves ops })
    have hwhole := hreads.trans (by rw [hraise])
    refine ⟨keepsBut_finish ?_ (by decide) (by decide), (congrArg Node.gap hwhole).trans rfl,
      (congrArg Node.dir hwhole).trans rfl, fun hroom => readersFailed _ hroom⟩
    rw [show completeReads _ _ _ _ = _ from hwhole]
    exact Node.keepsBut_of_overlay rfl
  · refine ⟨_, exec_paramOpTimeout hl, ?_⟩
    rw [paramTimeout_write _ hq hw ho, endWriteEntry_entry]
    obtain ⟨rg, f, hraise⟩ := paramTimeout_raised (s := s) ((g.copied r.tag none).serves ops)
    obtain ⟨rg', f', hend⟩ := endEntry_eq s.settings (writesTag r.tag) .failed []
      (raise s.settings .paramTimeout { s.node with gap := (g.copied r.tag none).serves ops })
    have hwhole := hend.trans (by rw [hraise])
    refine ⟨keepsBut_finish ?_ (by decide) (by decide), (congrArg Node.gap hwhole).trans rfl,
      (congrArg Node.dir hwhole).trans rfl, fun hroom => writerFailed _ _ hroom⟩
    rw [show endEntry _ _ _ _ _ = _ from hwhole]
    exact Node.keepsBut_of_overlay rfl
  · refine ⟨_, exec_paramOpTimeout hl, ?_⟩
    rw [paramTimeout_write _ hq hw ho, endWriteEntry_aborted]
    obtain ⟨rg, f, hraise⟩ := paramTimeout_raised (s := s) ((g.copied r.tag none).serves ops)
    refine ⟨keepsBut_finish ?_ (by decide) (by decide), (congrArg Node.gap hraise).trans rfl, fun hroom => ?_⟩
    · rw [show raise _ _ _ = _ from hraise]
      exact Node.keepsBut_of_overlay rfl
    · have hroom' := State.roomFor.afterReport (ev := eventOf .paramTimeout s.node) hroom
      have hends := afterReport_ends (paramTimeout_sent ((g.copied r.tag none).serves ops)
        (hroom.le (Nat.le_add_right _ _))) hroom'
      rw [ite_self]
      exact hends

end Sys2Proof.Machine
end

section
/-! SUPPORT. The ends of the parameter operations, where an application waits on the fill (R97, R134, R140, R141, R150,
R151, R153). -/

namespace Sys2Proof.Machine

set_option Elab.async false

/-! ## The outcome of the fill that an application waits on -/

section Told
variable {g : GapControl} {tag : CoefTag} {ops : List ParamOp} {got : Option CoefRecord} {w : Waiting}

/-- The Gap Controller at the end of the fill of the waiting tag: the outcome, the coefficients used last, and the next
operation (R150, R151, R153). -/
def GapControl.told (tag : CoefTag) (ops : List ParamOp) (got : Option CoefRecord) (g : GapControl) : GapControl :=
  { (g.outcome tag got).serves ops with lastCoefs := got.or g.lastCoefs }

theorem fillOutcome_waited (hw : g.waiting = some w) (htag : w.tag = tag) (hgot : ∀ r, got = some r → r.tag = tag) :
    g.fillOutcome tag got = { g.outcome tag got with lastCoefs := got.or g.lastCoefs } := by
  cases got with
  | none => rfl
  | some r =>
    obtain rfl := hgot r rfl
    have hinstall : (g.install r).waiting = some w := hw
    unfold GapControl.fillOutcome
    dsimp only
    split
    next v hv =>
      obtain rfl : w = v := Option.some.inj (hinstall.symm.trans hv)
      exact (if_pos htag).trans rfl
    next hnone => exact absurd (hinstall.symm.trans hnone) (Option.some_ne_none w)

theorem told_eq (hq : g.queue = .fill tag :: ops) (hw : g.waiting = some w) (hwant : w.wanted = false)
    (htag : w.tag = tag) (hgot : ∀ r, got = some r → r.tag = tag) :
    (g.fillOutcome tag got).endOperation = g.told tag ops got := by
  rw [fillOutcome_waited hw htag hgot]
  cases got with
  | none => exact endOperation_waits (by exact hq) (by exact hw) hwant
  | some r => exact endOperation_waits (by exact hq) (by exact hw) hwant

/-- The terms of the demand, the reference and the waiting application stay at a fill's end. -/
theorem told_stays : (g.told tag ops got).ff = g.ff ∧ (g.told tag ops got).monitor = g.monitor ∧
    (g.told tag ops got).gapTrim = g.gapTrim ∧ (g.told tag ops got).profileTrim = g.profileTrim ∧
    (g.told tag ops got).base = g.base ∧ (g.told tag ops got).reference = g.reference ∧
    (g.told tag ops got).waiting = g.waiting ∧ (g.told tag ops got).ffEnable = g.ffEnable := by
  cases got <;> exact ⟨rfl, rfl, rfl, rfl, rfl, rfl, rfl, rfl⟩

end Told

/-! ## The second hand-over (R97) -/

section Again
variable {c : Settings} {n : Node} {tag : CoefTag} {w : Waiting} {a : ArrivalRecord} {d : Int}

theorem applyAll_empty (h : n.track.arrival = []) : applyAll c n = n := by
  unfold applyAll
  rw [h]
  rfl

/-- The queue of one record is empty behind its acceptance. -/
theorem applyAll_accept {r : ArrivalRecord} {ff : Int} (harr : n.track.arrival = [a]) :
    applyAll c (accept c r ff n) = accept c r ff n := by
  obtain ⟨g, rg, f, haccept, _⟩ := accept_steers c r ff n
  refine applyAll_empty ?_
  rw [haccept, Node.accepted, harr]
  rfl

/-- A fill of another tag leaves the application waiting (R97). -/
theorem fillEnded_other {got : Option CoefRecord} (hw : n.gap.waiting = some w) (hother : w.tag ≠ tag) :
    fillEnded c tag got n = n := by
  unfold fillEnded
  rw [hw]
  cases n.track.arrival with
  | nil => rfl
  | cons r rs => exact if_neg hother

variable (hw : n.gap.waiting = some w) (htag : w.tag = tag) (harr : n.track.arrival = [a])
  (hlook : ffJudge n a.deviation = .look d)
include hw htag harr hlook

theorem fillEnded_installed (r : CoefRecord) :
    fillEnded c tag (some r) n = accept c a ((r.ff * d).tdiv 1000) n := by
  unfold fillEnded
  rw [hw, harr]
  dsimp only
  rw [if_pos htag, handOverAgain, hlook]
  exact applyAll_accept harr

theorem fillEnded_failed : fillEnded c tag none n = accept c a 0 (raise c .coefUnusable n) := by
  obtain ⟨r, f, hraise⟩ := raise_correctable_rest c n (code := .coefUnusable) rfl
  unfold fillEnded
  rw [hw, harr]
  dsimp only
  rw [if_pos htag, handOverAgain, hlook]
  exact applyAll_accept (by rw [hraise]; exact harr)

end Again

/-! ## What the application of the waiting head makes of the node -/

/-- What the application of the waiting head with an ff term makes of a node (R97, R134, R140). -/
def Node.appliesHead (n : Node) (ops : List ParamOp) (sc : Schedule) (base : Nat) (a : ArrivalRecord) (ff : Int)
    (m : Node) : Prop :=
  m.track = { n.track with arrival := [], headWaiting := false } ∧
    m.seq = n.seq ∧ m.gap.waiting = none ∧ m.gap.queue = ops ∧
    m.gap.lastApplied = some (a.number, a.scheduleId) ∧ m.gap.ff = ff ∧
    ∃ run trim, n.profileTakes a.number run trim ∧ m.sched = { n.sched with profile := run } ∧
      m.gap.profileTrim = trim ∧
      (ff ≠ n.gap.ff ∨ trim ≠ n.gap.profileTrim → (m.gap.reference : Int) =
        clamped sc ((base : Int) + ff + n.gap.monitor + (n.gap.gapTrim + trim))) ∧
      (ff = n.gap.ff → trim = n.gap.profileTrim → m.gap.reference = n.gap.reference)

section Applies
variable {c : Settings} {n : Node} {tag : CoefTag} {ops : List ParamOp} {got : Option CoefRecord} {a : ArrivalRecord}
  {ff : Int} {id : Nat} {sc : Schedule} {base : Nat} {r₀ : RingPort} {f₀ : FaultUnit}

/-- The node at the end of the fill of the waiting tag, before the application. -/
def Node.toldOf (tag : CoefTag) (ops : List ParamOp) (got : Option CoefRecord) (n : Node) : Node :=
  { n with gap := n.gap.told tag ops got }

variable (harr : n.track.arrival = [a]) (hstand : n.seq.stand = .rolling) (hfree : n.seq.holds.any = false)
  (hactive : n.sched.active = some (id, sc)) (hbase : n.gap.base = some base)
include harr hstand hfree hactive hbase

theorem accept_applies :
    n.appliesHead ops sc base a ff
      (accept c a ff { n.toldOf tag ops got with ring := r₀, flt := f₀ }) ∧
    (accept c a ff { n.toldOf tag ops got with ring := r₀, flt := f₀ }).gap.lastCoefs = got.or n.gap.lastCoefs := by
  obtain ⟨hff, hmon, htrim, hprof, hb, href, hwait, _⟩ := told_stays (g := n.gap) (tag := tag) (ops := ops) (got := got)
  have hqueue : (n.gap.told tag ops got).queue = ops := by cases got <;> rfl
  have hcoefs : (n.gap.told tag ops got).lastCoefs = got.or n.gap.lastCoefs := by cases got <;> rfl
  let m : Node := { n.toldOf tag ops got with ring := r₀, flt := f₀ }
  have hat : m.trimAt a.number = n.trimAt a.number := congrArg (fun t => (n.sched.profileStep a.number).2.getD t) hprof
  obtain ⟨g, rg, f, haccept, hsteers⟩ := accept_steers c a ff m
  have hgap : (accept c a ff m).gap = g := congrArg Node.gap haccept
  have htrack : (accept c a ff m).track = { n.track with arrival := [], headWaiting := false } := by
    refine (congrArg Node.track haccept).trans ?_
    show { n.track with arrival := n.track.arrival.drop 1, headWaiting := false } = _
    rw [harr]
    rfl
  have hstrip : m.seq.stand.strip = true := (congrArg StandState.strip hstand).trans rfl
  refine ⟨⟨htrack, (congrArg Node.seq haccept).trans rfl, ?_, ?_, ?_, ?_, n.runAt a.number, n.trimAt a.number,
    profileTakes_at n a.number, (congrArg Node.sched haccept).trans rfl, ?_, fun hchanged => ?_, fun hsame htsame => ?_⟩,
    ?_⟩
  · rw [hgap, hsteers]
    rfl
  · rw [hgap, hsteers]
    exact hqueue
  · rw [hgap, hsteers]
    rfl
  · rw [hgap, hsteers]
    rfl
  · rw [hgap, hsteers]
    exact hat
  · have hchanged' : ff ≠ m.gap.ff ∨ m.trimAt a.number ≠ m.gap.profileTrim := by
      rw [hat, show m.gap.ff = n.gap.ff from hff, show m.gap.profileTrim = n.gap.profileTrim from hprof]
      exact hchanged
    have hplaced := accept_reference c a (n := m) hstrip hfree hchanged' hactive (hb.trans hbase)
    rw [if_neg (by rw [show m.seq.stand = .rolling from hstand]; decide), hat,
      show m.gap.monitor = n.gap.monitor from hmon, show m.gap.gapTrim = n.gap.gapTrim from htrim,
      ← Int.add_assoc (base : Int)] at hplaced
    exact hplaced
  · rw [show accept c a ff _ = _ from accept_still c a (n := m) fun h => by
      obtain ⟨_, _, hchanged⟩ := h
      rw [hat, show m.gap.ff = n.gap.ff from hff, show m.gap.profileTrim = n.gap.profileTrim from hprof] at hchanged
      exact hchanged.elim (absurd hsame) (absurd htsame)]
    exact href
  · rw [hgap, hsteers]
    exact hcoefs

end Applies

/-- The readers of a fill leave what the application has made of the node. -/
theorem Node.appliesHead.readers {n m : Node} {ops : List ParamOp} {sc : Schedule} {base : Nat} {a : ArrivalRecord}
    {ff : Int} (c : Settings) (tag : CoefTag) (got : Option CoefRecord) (h : n.appliesHead ops sc base a ff m) :
    n.appliesHead ops sc base a ff (finish c (completeReads c tag got m)) ∧
      (finish c (completeReads c tag got m)).gap.lastCoefs = m.gap.lastCoefs := by
  obtain ⟨r, f, hreads⟩ := completeReads_rest c tag got m
  rw [hreads]
  exact ⟨h, rfl⟩

end Sys2Proof.Machine
end

section
/-! SUPPORT. The ends of the parameter operations (R52, R97, R134, R140, R141, R150 to R153): the rows at which an
application waits, and the obligation. -/

namespace Sys2Proof.Machine

set_option Elab.async false

/-! ## Ends of other operations -/

section Others
variable {s : State} {tag : CoefTag} {ops : List ParamOp} {record : MemRead} {w : Waiting}

theorem fillOutcome_other {g : GapControl} {got : Option CoefRecord} (hw : g.waiting = some w) (hother : w.tag ≠ tag)
    (hgot : ∀ r, got = some r → r.tag = tag) : g.fillOutcome tag got = g.outcome tag got := by
  cases got with
  | none => rfl
  | some r =>
    obtain rfl := hgot r rfl
    have hinstall : (g.install r).waiting = some w := hw
    unfold GapControl.fillOutcome
    dsimp only
    split
    next v hv =>
      obtain rfl : w = v := Option.some.inj (hinstall.symm.trans hv)
      exact (if_neg hother).trans rfl
    next hnone => exact absurd (hinstall.symm.trans hnone) (Option.some_ne_none w)

theorem endWriteEntry_eq (c : Settings) (t : CoefTag) (e : Bool) (st : Status) (n : Node) :
    (endWriteEntry c t e st n).gap = n.gap ∧ (endWriteEntry c t e st n).track = n.track := by
  cases e with
  | false => exact ⟨rfl, rfl⟩
  | true =>
    obtain ⟨r, f, hend⟩ := endEntry_eq c (writesTag t) st [] n
    rw [endWriteEntry_entry, hend]
    exact ⟨rfl, rfl⟩

/-- A fill that waits for room joins the tail as a write ends (R141, R153). -/
theorem writeEnds_wanted (hl : s.live) (hw : s.node.gap.waiting = some w) (hwant : w.wanted = true) {r : CoefRecord}
    {e : Bool} (hq : s.node.gap.queue = .write r e :: ops) : ∃ t, exec .coefWriteComplete s = .next t ∧
      t.node.gap.queue = ops ++ [.fill w.tag] ∧ t.node.gap.opTimer = some 20 ∧
      t.node.gap.waiting = some { w with wanted := false } ∧ t.node.track = s.node.track := by
  refine ⟨_, exec_coefWriteComplete hl hq, ?_⟩
  obtain ⟨hgap, htrack⟩ := endWriteEntry_eq s.settings r.tag e .done
    { s.node with gap := (s.node.gap.updateCopy r.tag (some r)).endOperation }
  have hjoins := hgap.trans
    (endOperation_wanted (g := s.node.gap.updateCopy r.tag (some r)) (by exact hq) (by exact hw) hwant)
  exact ⟨congrArg GapControl.queue hjoins, congrArg GapControl.opTimer hjoins, congrArg GapControl.waiting hjoins,
    htrack⟩

/-- The end of a fill of another tag leaves the application waiting (R97). -/
theorem fillEnds_other (hl : s.live) (hq : s.node.gap.queue = .fill tag :: ops) (hw : s.node.gap.waiting = some w)
    (hwant : w.wanted = false) (hother : w.tag ≠ tag) : ∃ t, exec (.fillComplete record) s = .next t ∧
      t.node.track = s.node.track ∧ t.node.gap.waiting = some w ∧ t.node.gap.ff = s.node.gap.ff := by
  refine ⟨_, exec_fillComplete hl hq, ?_⟩
  have hgot : ∀ r, gotRecord s tag record = some r → r.tag = tag := fun r hr => tag_of_recordRead hr
  generalize gotRecord s tag record = got at hgot
  have hops : (s.node.gap.fillOutcome tag got).endOperation = (s.node.gap.outcome tag got).serves ops := by
    rw [fillOutcome_other hw hother hgot]
    cases got with
    | none => exact endOperation_waits (by exact hq) (by exact hw) hwant
    | some r => exact endOperation_waits (by exact hq) (by exact hw) hwant
  have hwait : ((s.node.gap.outcome tag got).serves ops).waiting = some w := by cases got <;> exact hw
  have hff : ((s.node.gap.outcome tag got).serves ops).ff = s.node.gap.ff := by cases got <;> rfl
  obtain ⟨r, f, hreads⟩ := completeReads_rest s.settings tag got
    { s.node with gap := (s.node.gap.outcome tag got).serves ops }
  have hend : endFill s.settings tag got s.node = completeReads s.settings tag got
      { s.node with gap := (s.node.gap.outcome tag got).serves ops } := by
    rw [endFill, tellWaiters, hops, fillEnded_other (by exact hwait) hother]
  exact ⟨(congrArg Node.track (hend.trans hreads)).trans rfl,
    (congrArg (fun n : Node => n.gap.waiting) (hend.trans hreads)).trans hwait,
    (congrArg (fun n : Node => n.gap.ff) (hend.trans hreads)).trans hff⟩

end Others

/-! ## The end of the fill that an application waits on -/

section Waited
variable {s : State} {tag : CoefTag} {ops : List ParamOp} {record : MemRead} {w : Waiting} {id : Nat} {sc : Schedule}
  {base : Nat} {a : ArrivalRecord} {d : Int}

/-- A waiting head at the end of its fill, in ROLLING and in no hold, under a schedule that allows feedforward. -/
structure Node.awaits (n : Node) (tag : CoefTag) (ops : List ParamOp) (sc : Schedule) (base : Nat) (a : ArrivalRecord)
    (d : Int) : Prop where
  queue : n.gap.queue = .fill tag :: ops
  waiting : ∃ w, n.gap.waiting = some w ∧ w.wanted = false ∧ w.tag = tag
  rolling : n.seq.stand = .rolling
  free : n.seq.holds.any = false
  enabled : n.gap.ffEnable = true
  active : ∃ id, n.sched.active = some (id, sc)
  allowed : sc.ffAllowed = true
  based : n.gap.base = some base
  head : n.track.arrival = [a]
  deviates : a.deviation = some d

variable {n : Node} {c : Settings}

theorem Node.awaits.looks (h : n.awaits tag ops sc base a d) {got : Option CoefRecord} {r₀ : RingPort}
    {f₀ : FaultUnit} :
    ffJudge { n.toldOf tag ops got with ring := r₀, flt := f₀ } a.deviation = .look d := by
  obtain ⟨_, _, _, _, _, _, _, hff⟩ := told_stays (g := n.gap) (tag := tag) (ops := ops) (got := got)
  obtain ⟨id, hactive⟩ := h.active
  exact (ffJudge_look { n.toldOf tag ops got with ring := r₀, flt := f₀ } a d _
    ⟨h.rolling, h.free, hff.trans h.enabled, h.deviates, id, sc, hactive, h.allowed, rfl⟩).1

/-- The waiting application stays as the fill's end is taken into the Gap Controller. -/
theorem Node.awaits.told (h : n.awaits tag ops sc base a d) {got : Option CoefRecord}
    (hgot : ∀ r, got = some r → r.tag = tag) : (n.gap.fillOutcome tag got).endOperation = n.gap.told tag ops got ∧
      ∃ w, (n.gap.told tag ops got).waiting = some w ∧ w.tag = tag := by
  obtain ⟨_, _, _, _, _, _, hwait, _⟩ := told_stays (g := n.gap) (tag := tag) (ops := ops) (got := got)
  obtain ⟨w, hw, hwant, htag⟩ := h.waiting
  exact ⟨told_eq h.queue hw hwant htag hgot, w, hwait.trans hw, htag⟩

theorem Node.awaits.applies (h : n.awaits tag ops sc base a d) {got : Option CoefRecord} {r₀ : RingPort}
    {f₀ : FaultUnit} {ff : Int} :
    n.appliesHead ops sc base a ff (accept c a ff { n.toldOf tag ops got with ring := r₀, flt := f₀ }) ∧
    (accept c a ff { n.toldOf tag ops got with ring := r₀, flt := f₀ }).gap.lastCoefs = got.or n.gap.lastCoefs := by
  obtain ⟨id, hactive⟩ := h.active
  exact accept_applies h.head h.rolling h.free hactive h.based

/-- A fill's end with an intact record: the waiting head applied with the installed coefficient (R97). -/
theorem endFill_installed (h : n.awaits tag ops sc base a d) {r : CoefRecord} (htag : r.tag = tag) :
    endFill c tag (some r) n = completeReads c tag (some r)
      (accept c a ((r.ff * d).tdiv 1000) (n.toldOf tag ops (some r))) := by
  obtain ⟨htold, w, hw, hwtag⟩ := h.told (got := some r) fun r' hr => Option.some.inj hr ▸ htag
  rw [endFill, tellWaiters, htold]
  exact congrArg (completeReads c tag (some r))
    (fillEnded_installed (n := n.toldOf tag ops (some r)) hw hwtag h.head (h.looks (r₀ := n.ring) (f₀ := n.flt)) r)

/-- A fill's end without a record: COEF_UNUSABLE, and the waiting head applied with an ff term of 0 (R97). -/
theorem endFill_failed (h : n.awaits tag ops sc base a d) :
    endFill c tag none n = completeReads c tag none (accept c a 0 (raise c .coefUnusable (n.toldOf tag ops none))) := by
  obtain ⟨htold, w, hw, hwtag⟩ := h.told (got := none) fun _ hr => nomatch hr
  rw [endFill, tellWaiters, htold]
  exact congrArg (completeReads c tag none)
    (fillEnded_failed (n := n.toldOf tag ops none) hw hwtag h.head (h.looks (r₀ := n.ring) (f₀ := n.flt)))

/-- A timeout of the fill: PARAM_TIMEOUT first (R151). -/
theorem paramTimeout_awaits (h : n.awaits tag ops sc base a d) (ho : n.gap.opTimer = some 0) :
    paramTimeout c n = completeReads c tag none
      (accept c a 0 (raise c .coefUnusable (raise c .paramTimeout (n.toldOf tag ops none)))) := by
  obtain ⟨htold, w, hw, hwtag⟩ := h.told (got := none) fun _ hr => nomatch hr
  have hout : timerOut n.gap.opTimer = true := (timerOut_iff _).mpr ho
  obtain ⟨r, f, hraise⟩ := raise_correctable_rest c (n.toldOf tag ops none) (code := .paramTimeout) rfl
  simp only [paramTimeout, hout, h.queue]
  rw [timeOutFill, tellWaiters, htold]
  refine congrArg (completeReads c tag none) ?_
  rw [show raise c .paramTimeout { n with gap := n.gap.told tag ops none } = _ from hraise,
    show raise c .paramTimeout (n.toldOf tag ops none) = _ from hraise]
  exact fillEnded_failed (n := { n.toldOf tag ops none with ring := r, flt := f }) hw hwtag h.head h.looks

end Waited

end Sys2Proof.Machine
end

section
/-! SUPPORT. The ends of the parameter operations (R52, R97, R134, R140, R141, R150 to R153): the rows of the waiting
application's fill, and the obligation. -/

namespace Sys2Proof.Machine

set_option Elab.async false

/-! ## Nothing sent by an acceptance that moves no term -/

section Unmoved
variable {c : Settings} {n : Node} {a : ArrivalRecord} {ff : Int}

theorem accept_trim : (accept c a ff n).gap.profileTrim = n.trimAt a.number := by
  obtain ⟨g, rg, f, haccept, hsteers⟩ := accept_steers c a ff n
  rw [show (accept c a ff n).gap = g from congrArg Node.gap haccept, hsteers]
  rfl

theorem accept_unmoved (hff : ff = n.gap.ff) (htrim : (accept c a ff n).gap.profileTrim = n.gap.profileTrim) :
    accept c a ff n = n.accepted a ff := by
  rw [accept_trim] at htrim
  refine accept_still c a fun h => ?_
  obtain ⟨_, _, hchanged⟩ := h
  exact hchanged.elim (absurd hff) (absurd htrim)

/-- The readers answered behind an acceptance that moves no term. -/
theorem State.sent.headReaders {s x : State} {tag : CoefTag} {got : Option CoefRecord} (hm : x.sent [] n)
    (hdir : n.dir = s.node.dir) (hring : n.memb.ring = s.node.memb.ring)
    (ha : s.node.memb.ring.admits .reply = true) (hff : ff = n.gap.ff)
    (htrim : (accept c a ff n).gap.profileTrim = n.gap.profileTrim)
    (hroom : x.roomFor ((s.node.dir.table.filter (readsTag tag)).map (readReply got)).length) :
    x.sent ((s.node.dir.table.filter (readsTag tag)).map (readReply got))
      (completeReads x.settings tag got (accept c a ff n)) := by
  rw [accept_unmoved hff htrim]
  have hsent := completeReads_sent x.settings tag got (n := n.accepted a ff) (s := x) hm
  have hadmits : (n.accepted a ff).memb.ring.admits .reply = true :=
    (congrArg (fun r : RingState => r.admits .reply) hring).trans ha
  rw [if_pos hadmits, show (n.accepted a ff).dir = s.node.dir from hdir] at hsent
  exact hsent hroom

end Unmoved

/-! ## The rows -/

section Rows
variable {s : State} {tag : CoefTag} {ops : List ParamOp} {record : MemRead} {sc : Schedule} {base : Nat}
  {a : ArrivalRecord} {d : Int}

theorem toldOf_ff {n : Node} {got : Option CoefRecord} : (n.toldOf tag ops got).gap.ff = n.gap.ff :=
  (told_stays (g := n.gap) (tag := tag) (ops := ops) (got := got)).1

theorem toldOf_trim {n : Node} {got : Option CoefRecord} :
    (n.toldOf tag ops got).gap.profileTrim = n.gap.profileTrim := by cases got <;> rfl

/-- The fill that delivers the waiting record (R97, R150). -/
theorem fillEnds_installed (hl : s.live) (h : s.node.awaits tag ops sc base a d) {r : CoefRecord}
    (hgot : gotRecord s tag record = some r) : ∃ t, exec (.fillComplete record) s = .next t ∧
      s.node.appliesHead ops sc base a ((r.ff * d).tdiv 1000) t.node ∧ t.node.gap.lastCoefs = some r ∧
      ((r.ff * d).tdiv 1000 = s.node.gap.ff → t.node.gap.profileTrim = s.node.gap.profileTrim →
        s.node.memb.ring.admits .reply = true →
        s.offers ((s.node.dir.table.filter (readsTag tag)).map (readReply (some r))) t) := by
  refine ⟨_, exec_fillComplete hl h.queue, ?_⟩
  rw [hgot, endFill_installed (c := s.settings) h (tag_of_recordRead hgot)]
  obtain ⟨happly, hcoefs⟩ := h.applies (c := s.settings) (got := some r) (ff := (r.ff * d).tdiv 1000)
    (r₀ := s.node.ring) (f₀ := s.node.flt)
  obtain ⟨hwhole, hkeep⟩ := happly.readers s.settings tag (some r)
  refine ⟨hwhole, hkeep.trans hcoefs, fun hff htrim ha => offers_of_sent fun hroom => ?_⟩
  obtain ⟨rg, f, hreads⟩ := completeReads_rest s.settings tag (some r)
    (accept s.settings a ((r.ff * d).tdiv 1000) (s.node.toldOf tag ops (some r)))
  have hmoved : (accept s.settings a ((r.ff * d).tdiv 1000) (s.node.toldOf tag ops (some r))).gap.profileTrim =
      (s.node.toldOf tag ops (some r)).gap.profileTrim :=
    ((congrArg (fun n : Node => n.gap.profileTrim) hreads).symm.trans htrim).trans toldOf_trim.symm
  exact State.sent.headReaders (s := s) (n := s.node.toldOf tag ops (some r)) State.sent_nil rfl rfl ha
    (hff.trans toldOf_ff.symm) hmoved hroom

/-- The fill that fails the waiting record (R97, R151). -/
theorem fillEnds_failed (hl : s.live) (h : s.node.awaits tag ops sc base a d)
    (hgot : gotRecord s tag record = none) : ∃ t, exec (.fillComplete record) s = .next t ∧
      s.node.appliesHead ops sc base a 0 t.node ∧ t.node.gap.lastCoefs = s.node.gap.lastCoefs ∧
      (s.node.gap.ff = 0 → t.node.gap.profileTrim = s.node.gap.profileTrim →
        s.node.memb.ring.admits .reply = true →
        s.roomFor (1 + ((s.node.dir.table.filter (readsTag tag)).map (readReply none)).length) →
        t.node.flt = s.node.flt.after s.settings (eventOf .coefUnusable s.node) ∧
        t.node.ring = { s.node.ring with
          insertQueue := queueAfter s.settings s.node.memb.ring (eventOf .coefUnusable s.node) s.node.flt
              s.node.ring.insertQueue ++ (s.node.dir.table.filter (readsTag tag)).map (readReply none) }) := by
  refine ⟨_, exec_fillComplete hl h.queue, ?_⟩
  rw [hgot, endFill_failed (c := s.settings) h]
  obtain ⟨rg, f, hraise⟩ := raise_correctable_rest s.settings (s.node.toldOf tag ops none) (code := .coefUnusable) rfl
  obtain ⟨happly, hcoefs⟩ := h.applies (c := s.settings) (got := none) (ff := 0) (r₀ := rg) (f₀ := f)
  rw [← show raise s.settings .coefUnusable (s.node.toldOf tag ops none) = _ from hraise] at happly hcoefs
  obtain ⟨hwhole, hkeep⟩ := happly.readers s.settings tag none
  refine ⟨hwhole, hkeep.trans hcoefs, fun hff htrim ha hroom => ?_⟩
  have hbehind := State.roomFor.afterReport (ev := eventOf .coefUnusable s.node) hroom
  have hraised : (s.afterReport (eventOf .coefUnusable s.node)).sent []
      (raise s.settings .coefUnusable (s.node.toldOf tag ops none)) :=
    raise_sent (m := s.node.toldOf tag ops none) State.sent_nil rfl (hroom.le (Nat.le_add_right _ _)) rfl
  refine afterReport_ends ?_ hbehind
  refine State.sent.headReaders (s := s) (x := s.afterReport (eventOf .coefUnusable s.node)) hraised ?_ ?_ ha ?_ ?_
    hbehind
  · exact (congrArg Node.dir hraise).trans rfl
  · exact (congrArg (fun n : Node => n.memb.ring) hraise).trans rfl
  · exact hff.symm.trans (((congrArg (fun n : Node => n.gap.ff) hraise).trans toldOf_ff).symm)
  · obtain ⟨r', f', hreads⟩ := completeReads_rest s.settings tag none
      (accept s.settings a 0 (raise s.settings .coefUnusable (s.node.toldOf tag ops none)))
    exact ((congrArg (fun n : Node => n.gap.profileTrim) hreads).symm.trans htrim).trans
      (((congrArg (fun n : Node => n.gap.profileTrim) hraise).trans toldOf_trim).symm)

/-- The fill that the timer ends (R97, R151). -/
theorem fillTimesOut (hl : s.live) (h : s.node.awaits tag ops sc base a d) (ho : s.node.gap.opTimer = some 0) :
    ∃ t, exec .paramOpTimeout s = .next t ∧ s.node.appliesHead ops sc base a 0 t.node ∧
      (s.node.gap.ff = 0 → t.node.gap.profileTrim = s.node.gap.profileTrim →
        s.node.memb.ring.admits .reply = true →
        s.roomFor (2 + ((s.node.dir.table.filter (readsTag tag)).map (readReply none)).length) →
        let flt := s.node.flt.after s.settings (eventOf .paramTimeout s.node)
        t.node.flt = flt.after s.settings (eventOf .coefUnusable s.node) ∧
        t.node.ring = { s.node.ring with
          insertQueue := queueAfter s.settings s.node.memb.ring (eventOf .coefUnusable s.node) flt
              (queueAfter s.settings s.node.memb.ring (eventOf .paramTimeout s.node) s.node.flt
                s.node.ring.insertQueue) ++ (s.node.dir.table.filter (readsTag tag)).map (readReply none) }) := by
  refine ⟨_, exec_paramOpTimeout hl, ?_⟩
  rw [paramTimeout_awaits (c := s.settings) h ho]
  obtain ⟨rg, f, hraise⟩ := raise_correctable_rest s.settings (s.node.toldOf tag ops none) (code := .paramTimeout) rfl
  obtain ⟨rg', f', hagain⟩ := raise_correctable_rest s.settings
    (raise s.settings .paramTimeout (s.node.toldOf tag ops none)) (code := .coefUnusable) rfl
  have hboth := hagain.trans (congrArg (fun n : Node => ({ n with ring := rg', flt := f' } : Node)) hraise)
  obtain ⟨happly, hcoefs⟩ := h.applies (c := s.settings) (got := none) (ff := 0) (r₀ := rg') (f₀ := f')
  rw [← show raise s.settings .coefUnusable (raise s.settings .paramTimeout (s.node.toldOf tag ops none)) = _
    from hboth] at happly
  obtain ⟨hwhole, _⟩ := happly.readers s.settings tag none
  refine ⟨hwhole, fun hff htrim ha hroom => ?_⟩
  have hroom' : s.roomFor (1 + (1 + ((s.node.dir.table.filter (readsTag tag)).map (readReply none)).length)) :=
    hroom.le (by omega)
  have hfirst := State.roomFor.afterReport (ev := eventOf .paramTimeout s.node) hroom'
  have hbehind := State.roomFor.afterReport (ev := eventOf .coefUnusable s.node) hfirst
  have hraised : (s.afterReport (eventOf .paramTimeout s.node)).sent []
      (raise s.settings .paramTimeout (s.node.toldOf tag ops none)) :=
    raise_sent (m := s.node.toldOf tag ops none) State.sent_nil rfl (hroom'.le (Nat.le_add_right _ _)) rfl
  have hevent : eventOf .coefUnusable (raise s.settings .paramTimeout (s.node.toldOf tag ops none)) =
      eventOf .coefUnusable s.node := by
    rw [hraise]
    rfl
  have hraised' := raise_sent (s := s.afterReport (eventOf .paramTimeout s.node)) (code := .coefUnusable) hraised rfl
    (hfirst.le (Nat.le_add_right _ _)) ((congrArg (fun n : Node => n.memb.ring) hraise).trans rfl)
  rw [hevent] at hraised'
  refine afterReport_ends (s := s.afterReport (eventOf .paramTimeout s.node)) ?_ hbehind
  refine State.sent.headReaders (s := s) hraised' ?_ ?_ ha ?_ ?_ hbehind
  · exact (congrArg Node.dir hboth).trans rfl
  · exact (congrArg (fun n : Node => n.memb.ring) hboth).trans rfl
  · exact hff.symm.trans (((congrArg (fun n : Node => n.gap.ff) hboth).trans toldOf_ff).symm)
  · obtain ⟨r', f', hreads⟩ := completeReads_rest s.settings tag none
      (accept s.settings a 0 (raise s.settings .coefUnusable
        (raise s.settings .paramTimeout (s.node.toldOf tag ops none))))
    exact ((congrArg (fun n : Node => n.gap.profileTrim) hreads).symm.trans htrim).trans
      (((congrArg (fun n : Node => n.gap.profileTrim) hboth).trans toldOf_trim).symm)

end Rows

/-- Settles O58, from the ends of the operations without and with an application that waits. -/
theorem parameterOperationEnds : Obligations.ParameterOperationEnds := by
  unfold Obligations.ParameterOperationEnds
  refine ⟨fun record s hl => ⟨fun hno => exec_fillComplete_none hno, fun tag ops hq hw => ?_⟩, operationsEnd,
    fun record s hl => ?_⟩
  · intro g mem readers old next
    obtain ⟨t, hexec, hset, hmem, hpend, hkept, hdir, hgap, hoffers⟩ := fillEnd_acts (record := record) hl hq hw
    refine ⟨t, hexec, hset, hmem, hpend, hkept, hdir, fun r hr => ?_, fun hr => ?_⟩
    · rw [show gotRecord s tag record = some r from hr] at hgap hoffers
      exact ⟨hgap, hoffers⟩
    · rw [show gotRecord s tag record = none from hr] at hgap hoffers
      exact ⟨hgap, hoffers⟩
  · intro n g
    refine ⟨fun w hw hwant r e ops hq => writeEnds_wanted hl hw hwant hq,
      fun tag ops hq w hw hwant hother => fillEnds_other hl hq hw hwant hother, ?_⟩
    intro tag ops hq w hw hwant htag hs hfree hff id sc hactive hallow base hbase a hhead hone d hd got readers applied
    have harr : n.track.arrival = [a] := by
      obtain ⟨x, hx⟩ := List.length_eq_one_iff.mp hone
      rw [hx] at hhead ⊢
      exact congrArg (fun y => [y]) (Option.some.inj hhead)
    have h : s.node.awaits tag ops sc base a d :=
      ⟨hq, ⟨w, hw, hwant, htag⟩, hs, hfree, hff, ⟨id, hactive⟩, hallow, hbase, harr, hd⟩
    have hlen : (readers.map (readReply none)).length = readers.length := List.length_map _
    refine ⟨fun r hr => fillEnds_installed hl h hr, fun hr => ?_, fun ho => ?_⟩
    · obtain ⟨t, hexec, happly, hcoefs, hsent⟩ := fillEnds_failed hl h (record := record) hr
      exact ⟨t, hexec, happly, hcoefs, fun hff htrim ha hroom =>
        hsent hff htrim ha (by rw [← hlen] at hroom; exact hroom)⟩
    · obtain ⟨t, hexec, happly, hsent⟩ := fillTimesOut hl h ho
      exact ⟨t, hexec, happly, fun hff htrim ha hroom => hsent hff htrim ha (by rw [← hlen] at hroom; exact hroom)⟩

end Sys2Proof.Machine
end

section
/-! SUPPORT. Position samples (R71 to R73, R109, R146, R147, R172, R174). -/

namespace Sys2Proof.Machine

set_option Elab.async false

/-! ## A fault in STARTING (R163, R179) -/

section Starting
variable (c : Settings) {n : Node} {code : FaultCode}

/-- In STARTING a FATAL fault reaches the Fault Unit only (R163). -/
theorem raise_starting (hs : n.seq.stand = .starting) (hf : code.cls n.seq.stand = .fatal) :
    raise c code n = settle c (reportEvent c (eventOf code n) (countEvent (eventOf code n) (settle c n))) := by
  unfold raise handleEvent
  rw [routeEvent_fatal _ _ _ hf, localCause, if_pos (by exact hs)]

theorem raise_starting_rest (hs : n.seq.stand = .starting) (hf : code.cls n.seq.stand = .fatal) :
    ∃ r f, raise c code n = { n with ring := r, flt := f } := by
  rw [raise_starting c hs hf]
  exact ⟨_, _, rfl⟩

theorem raise_starting_room (hs : n.seq.stand = .starting) (hf : code.cls n.seq.stand = .fatal)
    (hb : n.ring.sending.isSome = true) (hw : n.flt.raised = []) (hq : n.ring.insertQueue.length < 16) :
    raise c code n = { n with
      flt := n.flt.after c (eventOf code n)
      ring := { n.ring with
        insertQueue := queueAfter c n.memb.ring (eventOf code n) n.flt n.ring.insertQueue } } := by
  rw [raise_starting c hs hf, settle_none _ _ hw,
    reportEvent_counted c (q := countEvent (eventOf code n) n) (f := n.flt) rfl hw rfl (by exact hb) (by exact hq),
    settle_none _ _ rfl]
  rfl

end Starting

/-! ## The samples -/

section Samples
variable (c : Settings) {n : Node} {side : Side} {position : Nat}

/-- The position stage with a valid value and its tilt mark (R71, R72). -/
def Meas.positioned (c : NodeConfig) (side : Side) (position : Nat) (m : Meas) : Meas :=
  let m1 := m.putPosition side { value := min position 60000, valid := true }
  { m1 with tiltMark := c.tiltLimit < ((m1.posDS.value : Int) - m1.posOS.value).natAbs }

/-- The node with a valid position taken. -/
def Node.positioned (c : NodeConfig) (side : Side) (position : Nat) (n : Node) : Node :=
  { n with meas := n.meas.positioned c side position }

/-- The node with a side of the position stage marked invalid. -/
def Node.misplaced (side : Side) (n : Node) : Node :=
  { n with meas := n.meas.putPosition side { n.meas.position side with valid := false } }

/-- The measured gap lies near a target (R146). -/
def Meas.near (c : NodeConfig) (m : Meas) (target : Nat) : Prop :=
  ((((m.posOS.value + m.posDS.value) / 2 : Nat) : Int) - target).natAbs ≤ c.positionTolerance

/-- The tilt mark becomes set in a strip state (R72). -/
def Node.tilts (n : Node) (m : Meas) : Prop :=
  m.tiltMark = true ∧ n.meas.tiltMark = false ∧ n.seq.stand.strip = true

theorem gapDistance_eq (a b : Nat) : gapDistance a b = ((a : Int) - b).natAbs := by
  unfold gapDistance
  omega

theorem withinTolerance_iff (target : Nat) :
    withinTolerance c n target = true ↔ n.meas.near c.config target := by
  rw [withinTolerance, gapDistance_eq]
  exact decide_eq_true_iff

theorem putPosition_tiltMark (m : Meas) (v : SideValue) : (m.putPosition side v).tiltMark = m.tiltMark := by
  cases side <;> rfl

theorem positionValid_eq (hs : n.seq.stand ≠ .starting) : positionValid c side position n = judgeGap c
    (if (n.meas.positioned c.config side position).tiltMark && !n.meas.tiltMark && n.seq.stand.strip then
      raise c .tiltLimit (n.positioned c.config side position) else n.positioned c.config side position) := by
  unfold positionValid updateTilt tiltJudged
  simp only [if_neg hs, putPosition_tiltMark]
  rfl

theorem positionValid_tilts (hs : n.seq.stand ≠ .starting) (ht : n.tilts (n.meas.positioned c.config side position)) :
    positionValid c side position n = judgeGap c (raise c .tiltLimit (n.positioned c.config side position)) := by
  obtain ⟨hmark, hbefore, hstrip⟩ := ht
  rw [positionValid_eq c hs, hmark, hbefore, hstrip]
  rfl

theorem positionValid_level (hs : n.seq.stand ≠ .starting) (ht : ¬ n.tilts (n.meas.positioned c.config side position)) :
    positionValid c side position n = judgeGap c (n.positioned c.config side position) := by
  rw [positionValid_eq c hs]
  refine congrArg (judgeGap c) (if_neg fun h => ht ?_)
  rwa [Bool.and_eq_true, Bool.and_eq_true, Bool.not_eq_true', and_assoc] at h

theorem judgeGap_far (h : (n.gap.supervision ≠ .moving ∧ n.gap.supervision ≠ .retracting) ∨
    ¬ n.meas.near c.config n.gap.target) : judgeGap c n = n := by
  rw [← withinTolerance_iff c] at h
  unfold judgeGap
  split
  next hm => exact if_neg (h.resolve_left fun hno => hno.1 hm)
  next hr => exact if_neg (h.resolve_left fun hno => hno.2 hr)
  next => rfl

theorem judgeGap_moves (hm : n.gap.supervision = .moving) (h : n.meas.near c.config n.gap.target) :
    judgeGap c n = completeMove c n := by
  unfold judgeGap
  rw [hm]
  exact if_pos ((withinTolerance_iff c _).mpr h)

theorem judgeGap_retracts (hr : n.gap.supervision = .retracting) (h : n.meas.near c.config n.gap.target) :
    judgeGap c n = completeRetract c n := by
  unfold judgeGap
  rw [hr]
  exact if_pos ((withinTolerance_iff c _).mpr h)

/-- Behind the trip of TILT_LIMIT supervision retracts, and a gap that is not near the retract gap ends nothing. -/
theorem judgeGap_tripped (hu : n.untripped) (hfar : ¬ n.meas.near c.config c.config.retractGap) :
    judgeGap c (raise c .tiltLimit n) = raise c .tiltLimit n := by
  obtain ⟨⟨_, _, _, hmeas, _, _, hgap⟩, _⟩ := raise_tripsOn c n .tiltLimit hu (.inl rfl)
  refine judgeGap_far c (.inr ?_)
  rw [hgap, hmeas]
  exact hfar

/-- The node with a move completed (R146). -/
def Node.moveDone (n : Node) : Node := { n with gap := { n.gap with
  supervision := .idle, timer := none, moves := { n.gap.moves with completed := satInc n.gap.moves.completed } } }

theorem completeMove_apart (hs : n.seq.stand ≠ .preset) : completeMove c n = n.moveDone := if_neg hs

theorem completeMove_preset (hs : n.seq.stand = .preset) :
    completeMove c n = endEntry c isPreset .done [] (enterReady n.moveDone) := if_pos hs

/-- The node with its retract completed (R147). -/
def Node.retractDone (n : Node) : Node := { n with gap := { n.gap with supervision := .retracted, timer := none } }

/-- A retract that ends lets the stand leave TRIPPED (R172). -/
def Node.leavesOnRetract (n : Node) : Bool :=
  n.seq.stand = .tripped && n.trip.active.isNone && n.trip.pending.isNone && n.trip.dropped = 0 && n.pins.loopClosed

theorem completeRetract_eq : completeRetract c n =
    if n.leavesOnRetract then enterQuiet c n.retractDone else n.retractDone := by
  have hleaves : n.retractDone.mayLeaveTripped = n.leavesOnRetract := Bool.and_true _
  rw [← hleaves]
  rfl

theorem positionInvalid_stays (h : (n.meas.position side).valid = false) : positionInvalid c side n = n :=
  if_neg (by rw [h]; exact Bool.false_ne_true)

theorem positionInvalid_raises (h : (n.meas.position side).valid = true) :
    positionInvalid c side n = raise c .positionSensor (n.misplaced side) := if_pos h

end Samples

/-! ## The rows -/

section Rows
variable {s : State} {side : Side} {position : Nat}

theorem exec_positionSample (hl : s.live) (valid : Bool) : exec (.positionSample side valid position) s =
    .next (s.withNode (finish s.settings (if valid then positionValid s.settings side position s.node
      else positionInvalid s.settings side s.node))) := by
  have hexec : exec (.positionSample side valid position) s = s.act (fun c n =>
    if valid then positionValid c side position n else positionInvalid c side n) := rfl
  rw [hexec, State.act_live _ _ hl]

/-- The REPLY that ends a request at a node whose transmit side is untouched, given room. -/
theorem entryAnswered {p : ReqEntry → Bool} {st : Status} {m : Node} (hm : s.sent [] m) (hdir : m.dir = s.node.dir)
    (hring : m.memb.ring = s.node.memb.ring) (ha : s.node.memb.ring.admits .reply = true) :
    s.offers ((s.node.dir.table.find? p).toList.map (fun e => replyFrame e.requester e.tag e.index st []))
      (s.withNode (finish s.settings (endEntry s.settings p st [] m))) := by
  have hframes : endReplies p st [] m =
      (s.node.dir.table.find? p).toList.map (fun e => replyFrame e.requester e.tag e.index st []) := by
    rw [endReplies, hring, hdir]
    exact if_pos ha
  refine offers_of_sent fun hroom => ?_
  have hempty := hroom.le (Nat.zero_le _)
  obtain ⟨_, _, hq⟩ := hroom
  have hr : m.ring = s.node.ring := hm.2.trans (by rw [List.append_nil])
  rw [endEntry_room s.settings p st [] m (hm.busy hempty) (hm.waits hempty) (by rw [hframes, hr]; exact hq), hframes]
  exact ⟨hm.1, by rw [hr]⟩

/-- A move completed by a sample (R109, R146). -/
theorem moveCompletes (m : Meas) :
    let n : Node := { s.node with meas := m }
    let t := s.withNode (finish s.settings (completeMove s.settings n))
    t.node.meas = m ∧ t.node.gap = s.node.moveDone.gap ∧
      (s.node.seq.stand ≠ .preset → s.keepsBut [.meas, .gap, .ring, .flt] t ∧ s.offers [] t) ∧
      (s.node.seq.stand = .preset →
        t.node.seq = { s.node.seq with stand := .ready } ∧ t.node.dir = (s.node.unlisted isPreset).dir ∧
        s.keepsBut [.meas, .gap, .seq, .dir, .ring, .flt] t ∧
        (s.node.memb.ring.admits .reply = true → s.offers ((s.node.dir.table.find? isPreset).toList.map
          (fun e => replyFrame e.requester e.tag e.index .done [])) t)) := by
  intro n t
  by_cases hs : s.node.seq.stand = .preset
  · have ht : t = s.withNode (finish s.settings
        (endEntry s.settings isPreset .done [] (enterReady n.moveDone))) :=
      congrArg (fun k => s.withNode (finish s.settings k)) (completeMove_preset _ (by exact hs))
    obtain ⟨r, f, hend⟩ := endEntry_eq s.settings isPreset .done [] (enterReady n.moveDone)
    rw [ht]
    refine ⟨(congrArg Node.meas hend).trans rfl, (congrArg Node.gap hend).trans rfl, fun hno => absurd hs hno,
      fun _ => ⟨(congrArg Node.seq hend).trans rfl, (congrArg Node.dir hend).trans rfl, ?_, fun ha =>
        entryAnswered State.sent_nil rfl rfl ha⟩⟩
    refine keepsBut_finish ?_ (by decide) (by decide)
    rw [hend]
    exact Node.keepsBut_of_overlay rfl
  · have ht : t = s.withNode (finish s.settings n.moveDone) :=
      congrArg (fun k => s.withNode (finish s.settings k)) (completeMove_apart _ (by exact hs))
    rw [ht]
    exact ⟨rfl, rfl, fun _ => acted_quietly (Node.keepsBut_of_overlay rfl), fun h => absurd h hs⟩

/-- A retract completed by a sample, and the stand leaving TRIPPED where R172 admits it (R147). -/
theorem retractCompletes (m : Meas) :
    let n : Node := { s.node with meas := m }
    let t := s.withNode (finish s.settings (completeRetract s.settings n))
    (s.node.leavesOnRetract = false →
      t.node.meas = m ∧ t.node.gap = s.node.retractDone.gap ∧
      s.keepsBut [.meas, .gap, .ring, .flt] t ∧ s.offers [] t) ∧
    (s.node.leavesOnRetract = true → s.node.pins.servoFlt = false →
      t.node.seq = { s.node.seq with stand := .quiet, holds := Holds.empty } ∧
      t.node.gap.reference = s.settings.config.standbyGap ∧ t.node.trip = s.node.trip ∧ s.offers [] t) := by
  intro n t
  have hwhole : t = s.withNode (finish s.settings (if s.node.leavesOnRetract then
      enterQuiet s.settings n.retractDone else n.retractDone)) :=
    congrArg (fun k => s.withNode (finish s.settings k)) (completeRetract_eq s.settings (n := n))
  rw [hwhole]
  refine ⟨fun hno => ?_, fun hyes hf => ?_⟩
  · rw [hno]
    exact ⟨rfl, rfl, acted_quietly (Node.keepsBut_of_overlay rfl)⟩
  · have hs : s.node.seq.stand = .tripped := by
      simp only [Node.leavesOnRetract, Bool.and_eq_true, decide_eq_true_eq] at hyes
      exact hyes.1.1.1.1
    obtain ⟨v, x, y, z, hgap⟩ := enterQuietQuietly_gap s.settings (n := n.retractDone) hs hf
    rw [hyes, if_pos rfl, enterQuiet_unfaulted s.settings (n := n.retractDone) hf]
    exact ⟨rfl, congrArg GapControl.reference hgap, rfl, offers_nil rfl rfl⟩

/-- A position marked invalid in STARTING raises POSITION_SENSOR, and nothing else (R71). -/
theorem misplaced_starting (hs : s.node.seq.stand = .starting) (side : Side) :
    let t := s.withNode (finish s.settings (raise s.settings .positionSensor (s.node.misplaced side)))
    t.node.meas = (s.node.misplaced side).meas ∧ s.keepsBut [.meas, .ring, .flt] t ∧
      s.reports .positionSensor s.node t := by
  intro t
  obtain ⟨r, f, hraise⟩ := raise_starting_rest s.settings (n := s.node.misplaced side) (code := .positionSensor) hs rfl
  refine ⟨(congrArg Node.meas hraise).trans rfl, keepsBut_finish ?_ (by decide) (by decide),
    reports_of_sent fun hroom => ?_⟩
  · rw [hraise]
    exact Node.keepsBut_of_overlay rfl
  · obtain ⟨hb, hw, hq⟩ := hroom
    rw [raise_starting_room s.settings (n := s.node.misplaced side) hs rfl hb hw (Nat.lt_of_succ_le hq)]
    exact State.sent_nil (s := s.afterReport (eventOf .positionSensor s.node))

end Rows

/-- Settles O55, by whether the tilt mark becomes set, and then by what supervision awaits. -/
theorem positionSampleIsJudged : Obligations.PositionSampleIsJudged := by
  unfold Obligations.PositionSampleIsJudged
  refine ⟨fun side position s hl hs => ?_, fun side position s hl => ?_⟩
  · intro n c m1 mark m near tilts
    refine ⟨_, exec_positionSample hl true, rfl, rfl, rfl, fun ht hfar => ?_, fun ht hu hfar => ?_,
      fun ht hm hnear => ?_, fun ht hr hnear => ?_⟩
    · rw [if_pos rfl, positionValid_level s.settings hs ht, judgeGap_far s.settings (by exact hfar)]
      exact ⟨rfl, acted_quietly (Node.keepsBut_of_overlay rfl)⟩
    · rw [if_pos rfl, positionValid_tilts s.settings hs ht, judgeGap_tripped s.settings (by exact hu) (by exact hfar)]
      exact tripsByFault_raise (m := s.node.positioned c side position) hu (.inl rfl) rfl rfl
    · rw [if_pos rfl, positionValid_level s.settings hs ht, judgeGap_moves s.settings (by exact hm) (by exact hnear)]
      exact moveCompletes m
    · rw [if_pos rfl, positionValid_level s.settings hs ht, judgeGap_retracts s.settings (by exact hr) (by exact hnear)]
      exact retractCompletes m
  · intro v marked
    refine ⟨_, exec_positionSample hl false (position := position), fun hv => ?_, fun hv hu => ?_, fun hv hs => ?_,
      fun hv hs => ?_⟩
    · rw [if_neg Bool.false_ne_true, positionInvalid_stays s.settings hv]
      exact acted_quietly (Node.keepsBut_of_overlay rfl)
    · rw [if_neg Bool.false_ne_true, positionInvalid_raises s.settings hv]
      exact tripsByFault_raise (m := marked) hu (.inl rfl) rfl rfl
    · rw [if_neg Bool.false_ne_true, positionInvalid_raises s.settings hv]
      have hstopped : (s.node.misplaced side).seq.stand.stopped = true := (congrArg StandState.stopped hs).trans rfl
      obtain ⟨r, f, hraise⟩ := raise_stopped s.settings (n := s.node.misplaced side) .positionSensor hstopped rfl
      refine ⟨(congrArg Node.meas hraise).trans rfl, (congrArg Node.seq hraise).trans ?_,
        (congrArg Node.gap hraise).trans rfl⟩
      exact congrArg (fun st => { s.node.seq with stand := st }) (standAfter_stopped rfl hstopped)
    · rw [if_neg Bool.false_ne_true, positionInvalid_raises s.settings hv]
      exact misplaced_starting hs side

end Sys2Proof.Machine
end

section
/-! SUPPORT. A segment that closes while the count of published records lies beyond 16 bits (R90): the refuting states of
O53 and O56. -/

namespace Sys2Proof.Machine

set_option Elab.async false

/-! ## The state -/

/-- The ACTIVE schedule of the refuting states. -/
def plainSchedule : Schedule where
  entryTarget := 2000
  exitTarget := 1000
  threadGap := 2000
  rollGap := 1500
  gapMin := 500
  gapMax := 4000
  forceLimit := 20000
  offGauge := 50
  pclass := 1
  ffAllowed := false
  monitorAllowed := false
  profile := []

/-- The open segment of the refuting states: the first of its run, 100 mm from position 0. -/
def firstSegment : OpenSegment where
  number := 1
  index := 0
  spanStart := 0
  coil := 7
  head := true
  weld := false
  good := 0
  sum := 0
  suspect := 0

/-- Segments of 100 mm, each published 900 mm beyond its start. -/
def shortSegments : NodeConfig :=
  { NodeConfig.unset with upstream := 4, downstream := 6, segLength := 100, biteDistance := 1000, publishLead := 100 }

/-- Station 5 in THREADING one pulse before the end of its first segment, with an empty exit track, no record due within
900 mm, and 70,000 as its count of published records. -/
def overCounted (fifo : List Sample) : State :=
  let n := Node.powerOn { Pins.initial with carrier := true, loopClosed := true } .running true 0
  { settings := { station := 5, writeProtect := false, config := shortSegments }
    paramMem := []
    pending := []
    node := { n with
      seq := { n.seq with stand := .threading }
      sched := { n.sched with slots := ⟨.active 1 plainSchedule, .empty, .empty, .empty⟩ }
      meas := { n.meas with fifo := fifo, exitCount := 99, exitPeak := 99 }
      track := { n.track with
        running := true, openSeg := some firstSegment, nextNumber := 2
        counts := { n.track.counts with published := 70000 } } } }

/-- A sample beyond the end of the first segment. -/
def beyondSpan : Sample := { stamp := 150, thickness := 1000, good := true }

theorem overCounted_live (fifo : List Sample) : (overCounted fifo).live := StartPhase.noConfusion

/-- The count of published records after a close by which no record is published: as it stands, and held in 16 bits. -/
theorem closesRun_holds_count {b t : State} (htrack : b.node.track.exitTrack = [])
    (hc : b.settings.config = shortSegments) (hcount : reaches b.node.meas.exitCount 900 = false)
    {g : OpenSegment} (hg : g.spanStart = 0)
    (h : b.closesRun 1 plainSchedule g 0 t) :
    t.node.track.counts.published = satAdd b.node.track.counts.published 0 := by
  obtain ⟨_, _, _, _, _, _, hjoins⟩ := h
  obtain ⟨y, hclosed, hy⟩ := hjoins rfl
  obtain ⟨_, _, _, _, _, _, _, _, _, hdue, _⟩ := hclosed
  have hduePos : y.due = 900 := by
    rw [hdue, hg, hc]
    decide
  obtain ⟨_, hpublished, _⟩ := hy
  rw [hpublished, htrack]
  simp only [hduePos, hcount]
  rfl

/-! ## The refutations -/

theorem overCounted_take :
    (takeSample (overCounted [beyondSpan]).settings (overCounted [beyondSpan]).node).track.counts.published = 70000 := by
  decide +kernel

/-- Refutes O53: in `overCounted` the take of one sample closes one segment, whose record is not yet due. The model
publishes nothing and leaves the count of published records at 70,000; the statement has it at that count plus 0, held in
16 bits, which is 65,535; no hypothesis bounds the count. -/
theorem not_gaugeSamplesReachSegments : ¬ Obligations.GaugeSamplesReachSegments := by
  unfold Obligations.GaugeSamplesReachSegments
  intro h
  obtain ⟨_, _, htakes⟩ := h
  obtain ⟨t, ht, _, hcloses⟩ := htakes (overCounted [beyondSpan]) (overCounted_live _)
  obtain ⟨_, _, _, hactive⟩ := hcloses firstSegment beyondSpan [] rfl rfl
  obtain ⟨hbeyond, _⟩ := hactive 1 plainSchedule rfl
  obtain ⟨hrun, _⟩ := hbeyond (by decide) (by decide) (.inr (by decide))
  have hcount := closesRun_holds_count rfl rfl (by decide) rfl hrun
  have hexec : exec .sampleTake (overCounted [beyondSpan]) =
      (overCounted [beyondSpan]).act (fun c n => takeSample c n) := rfl
  rw [hexec, State.act_live _ _ (overCounted_live _)] at ht
  obtain rfl := Host.Outcome.next.inj ht
  rw [withNode_node, finish_track] at hcount
  exact absurd (overCounted_take.symm.trans hcount) (by decide +kernel)

theorem overCounted_pulse : (encoderTurned (overCounted []).settings .exit .forward
    ((overCounted []).node.withPins ((overCounted []).node.pins.putEncoder .exit true false))).track.counts.published =
      70000 := by decide +kernel

/-- Refutes O56: in `overCounted` a forward pulse of the exit encoder closes one segment, whose record is not yet due. The
model publishes nothing and leaves the count of published records at 70,000; the statement has it at that count plus 0,
held in 16 bits, which is 65,535; no hypothesis bounds the count. -/
theorem not_encoderPulseMovesCount : ¬ Obligations.EncoderPulseMovesCount := by
  unfold Obligations.EncoderPulseMovesCount
  intro h
  obtain ⟨t, ht, _, _, _, _, _, _, _, _, _, _, _, _, _, _, _, _, _, _, hcloses⟩ :=
    h .exit true false (overCounted []) (overCounted_live _)
  obtain ⟨_, _, _, _, hrun⟩ := hcloses (by decide) rfl (fun _ h => nomatch h) firstSegment rfl rfl (by decide) 1
    plainSchedule rfl
  have hcount := closesRun_holds_count rfl rfl (by decide) rfl (hrun fun _ h => nomatch h)
  have hexec : exec (.encoderPulse .exit true false) (overCounted []) =
      (overCounted []).input ((overCounted []).node.pins.putEncoder .exit true false)
        (fun c p n => encoderTurned c .exit (turnOf (p.encoder .exit) (true, false)) n) := rfl
  rw [hexec, State.input_live _ _ _ (overCounted_live _)] at ht
  obtain rfl := Host.Outcome.next.inj ht
  rw [withNode_node, finish_track] at hcount
  exact absurd (overCounted_pulse.symm.trans hcount) (by decide +kernel)

end Sys2Proof.Machine
end

section
/-! SUPPORT. Publication (R89 to R92): the records that leave the exit track, the count of them, and the frames offered
for them. -/

namespace Sys2Proof.Machine

set_option Elab.async false

/-! ## What a publication leaves -/

theorem iterate_satInc (k x : Nat) : satInc^[k + 1] x = satAdd x (k + 1) := by
  induction k generalizing x with
  | zero => rfl
  | succ k ih =>
    rw [Function.iterate_succ_apply, ih, satInc, satAdd, satAdd, satAdd]
    omega

/-- The Tracking Unit with the first records of the exit track published, and a count of refusals. -/
def Tracking.published (k refused : Nat) (t : Tracking) : Tracking := { t with
  exitTrack := t.exitTrack.drop k
  counts := { t.counts with published := satInc^[k] t.counts.published, publishRefused := refused } }

/-- From a node to a node, the first `k` records of the exit track have been published as frames `fs`: they join the insert
queue where the ring state admits them and there is room, and each is counted as refused where it admits none. -/
structure Node.publishes (k : Nat) (fs : List OwnFrame) (n m : Node) : Prop where
  rest : ∃ r f j, m = { n with ring := r, flt := f, track := n.track.published k j }
  sent : n.memb.ring.admits .seg = true → ∀ (s : State) (gs : List OwnFrame), s.sent gs n →
    s.roomFor (gs ++ fs).length → s.sent (gs ++ fs) m ∧
      m.track.counts.publishRefused = n.track.counts.publishRefused
  refused : n.memb.ring.admits .seg = false → m.ring = n.ring ∧ m.flt = n.flt ∧
    m.track.counts.publishRefused = satInc^[fs.length] n.track.counts.publishRefused

variable {n m u : Node} {j k : Nat} {fs gs : List OwnFrame}

theorem published_twice (t : Tracking) (x y : Nat) :
    (t.published j x).published k y = t.published (j + k) y := by
  simp only [Tracking.published, List.drop_drop, Nat.add_comm j k, Function.iterate_add_apply]

theorem Node.publishes.refl (n : Node) : n.publishes 0 [] n where
  rest := ⟨n.ring, n.flt, n.track.counts.publishRefused, rfl⟩
  sent _ s gs hs _ := by
    rw [List.append_nil]
    exact ⟨hs, rfl⟩
  refused _ := ⟨rfl, rfl, rfl⟩

theorem Node.publishes.admits (h : n.publishes k fs m) (q : FrameKind) :
    m.memb.ring.admits q = n.memb.ring.admits q := by
  obtain ⟨r, f, j, rfl⟩ := h.rest
  rfl

theorem Node.publishes.trans (h : n.publishes j fs m) (g : m.publishes k gs u) : n.publishes (j + k) (fs ++ gs) u where
  rest := by
    obtain ⟨r, f, x, rfl⟩ := h.rest
    obtain ⟨r', f', y, rfl⟩ := g.rest
    exact ⟨r', f', y, congrArg (fun t => { n with ring := r', flt := f', track := t }) (published_twice n.track x y)⟩
  sent ha s es hs hr := by
    rw [← List.append_assoc] at hr ⊢
    obtain ⟨hfirst, hj⟩ := h.sent ha s es hs (hr.le (by rw [List.length_append (bs := gs)]; exact Nat.le_add_right _ _))
    obtain ⟨hboth, hk⟩ := g.sent ((h.admits _).trans ha) s _ hfirst hr
    exact ⟨hboth, hk.trans hj⟩
  refused ha := by
    obtain ⟨hring, hflt, hj⟩ := h.refused ha
    obtain ⟨hring', hflt', hk⟩ := g.refused ((h.admits _).trans ha)
    refine ⟨hring'.trans hring, hflt'.trans hflt, ?_⟩
    rw [hk, hj, List.length_append, Nat.add_comm, Function.iterate_add_apply]

/-! ## A SEG or MARK offered (R89, R91) -/

section Offer
variable (c : Settings) {o : OwnFrame}

theorem admits_mark (r : RingState) : r.admits .mark = r.admits .seg := by cases r <;> rfl

theorem offerTracked_publishes (hk : n.memb.ring.admits o.kind = n.memb.ring.admits .seg) (hf : o.fatal = false) :
    n.publishes 0 [o] (offerTracked c o n) where
  rest := by
    obtain ⟨⟨r, f, t, h, _⟩, j, ht⟩ := offerTracked_sends c n o
    refine ⟨r, f, j, ?_⟩
    rw [h] at ht ⊢
    exact congrArg (fun t => { n with ring := r, flt := f, track := t }) ht
  sent ha s gs hs hr := by
    rw [List.length_append] at hr
    have hempty := hr.le (Nat.le_add_right _ 1)
    have hq : n.ring.insertQueue.length < 16 := by
      have hlen := hr.2.2
      rw [hs.2, List.length_append]
      simp only [List.length_cons, List.length_nil] at hlen
      omega
    have hplaced : offerRefused n o = false := by
      unfold offerRefused
      rw [RingPort.place_room _ _ _ hq (hk.trans ha) hf]
    have hoffer : offerTracked c o n =
        { n with ring := { n.ring with insertQueue := n.ring.insertQueue ++ [o] } } := by
      unfold offerTracked
      rw [hplaced]
      exact offer_room c n o (hs.busy hempty) hq (hk.trans ha) hf
    rw [hoffer]
    exact ⟨⟨hs.1, by rw [hs.2, List.append_assoc]⟩, rfl⟩
  refused ha := by
    have hno : n.memb.ring.admits o.kind = false := hk.trans ha
    have hplace : (n.ring.place n.memb.ring o).2 = .refusedByState := by
      simp only [RingPort.place, hno, Bool.not_false, if_true]
    have hplaced : offerRefused n o = true := by
      unfold offerRefused
      rw [hplace]
    have hoffer : offerTracked c o n = { n with track := { n.track with counts := { n.track.counts with
        publishRefused := satInc n.track.counts.publishRefused } } } := by
      unfold offerTracked
      rw [hplaced]
      simp only [if_true, offer, Rep.offer, RingPort.place, ctxOf, hno, Bool.not_false]
    rw [hoffer]
    exact ⟨rfl, rfl, rfl⟩

end Offer

end Sys2Proof.Machine
end

section
/-! SUPPORT. The records published (R89 to R92): the head, those that are due, and those that a run's end leaves. -/

namespace Sys2Proof.Machine

set_option Elab.async false

section Publication
variable (c : Settings) {n : Node}

theorem publication_cons (onTime : Bool) (rem : ExitRecord → Nat) (x : ExitRecord) (xs : List ExitRecord) :
    publication c.config onTime rem (x :: xs) =
      publication c.config onTime rem [x] ++ publication c.config onTime rem xs := by
  rw [publication, publication, publication, ← List.flatMap_append, List.singleton_append]

theorem publication_one (onTime : Bool) (rem : ExitRecord → Nat) (x : ExitRecord) :
    publication c.config onTime rem [x] = segFrame c x (rem x) ::
      if onTime && markFollows c x.number then [markFrame c x.number] else [] := by
  have hboth : (onTime && decide (c.config.markInterval ≠ 0) && decide (x.number.toNat % c.config.markInterval = 0)) =
      (onTime && markFollows c x.number) := Bool.and_assoc _ _ _
  rw [publication, List.flatMap_singleton, hboth, segFrame_eq_segOf, markFrame_eq_markOf]

/-- The head of the exit track, published (R89, R91). -/
theorem publishHead_publishes (rem : ExitRecord → Nat) (onTime : Bool) {x : ExitRecord} {rest : List ExitRecord}
    (ht : n.track.exitTrack = x :: rest) :
    n.publishes 1 (publication c.config onTime rem [x]) (publishHead c rem onTime n) := by
  have htaken : n.publishes 1 [] { n with track := { n.track with
      exitTrack := rest, counts := { n.track.counts with published := satInc n.track.counts.published } } } :=
    { rest := ⟨n.ring, n.flt, n.track.counts.publishRefused, by rw [Tracking.published, ht]; rfl⟩
      sent := fun _ s gs hs _ => by
        rw [List.append_nil]
        exact ⟨hs, rfl⟩
      refused := fun _ => ⟨rfl, rfl, rfl⟩ }
  have hseg := htaken.trans (offerTracked_publishes c (o := segFrame c x (rem x)) rfl rfl)
  unfold publishHead
  rw [ht, publication_one]
  dsimp only
  split
  next => exact hseg.trans (offerTracked_publishes c (o := markFrame c x.number) (admits_mark _) rfl)
  next => exact hseg

/-- The records at the head of the exit track that are due, published (R89, R90). -/
theorem publishDue_publishes (rem : ExitRecord → Nat) (fuel : Nat) : ∀ n : Node, n.track.exitTrack.length ≤ fuel →
    let gone := n.track.exitTrack.takeWhile (fun x => reaches n.meas.exitCount x.due)
    n.publishes gone.length (publication c.config true rem gone) (publishDue c rem fuel n) := by
  induction fuel with
  | zero =>
    intro n hlen gone
    have hnone : gone = [] := by
      rw [show gone = n.track.exitTrack.takeWhile _ from rfl, List.length_eq_zero_iff.mp (Nat.le_zero.mp hlen)]
      rfl
    rw [hnone]
    exact .refl n
  | succ fuel ih =>
    intro n hlen gone
    unfold publishDue
    cases ht : n.track.exitTrack with
    | nil =>
      have hnone : gone = [] := by
        rw [show gone = n.track.exitTrack.takeWhile _ from rfl, ht]
        rfl
      rw [hnone]
      exact .refl n
    | cons x rest =>
      dsimp only
      split
      next hdue =>
        have hhead := publishHead_publishes c rem true ht
        obtain ⟨r, f, j, hwhole⟩ := hhead.rest
        have hrest : (publishHead c rem true n).track.exitTrack = rest := by
          rw [hwhole, Tracking.published, ht]
          rfl
        have hcount : (publishHead c rem true n).meas = n.meas := by rw [hwhole]
        have hmore := ih (publishHead c rem true n) (by
          rw [ht] at hlen
          rw [hrest]
          exact Nat.le_of_succ_le_succ hlen)
        rw [hrest, hcount] at hmore
        have hgone : gone = x :: rest.takeWhile (fun y => reaches n.meas.exitCount y.due) := by
          rw [show gone = n.track.exitTrack.takeWhile _ from rfl, ht]
          exact List.takeWhile_cons_of_pos hdue
        rw [hgone, publication_cons, List.length_cons, Nat.add_comm]
        exact hhead.trans hmore
      next hearly =>
        have hnone : gone = [] := by
          rw [show gone = n.track.exitTrack.takeWhile _ from rfl, ht]
          exact List.takeWhile_cons_of_neg hearly
        rw [hnone]
        exact .refl n

/-- A run's end publishes every record with its true remaining distance, and no MARK (R92). -/
theorem flushTrack_publishes (xs : List ExitRecord) : ∀ n : Node, n.track.exitTrack = xs →
    n.publishes xs.length (publication c.config false (trueRemaining c n.meas.exitCount) xs)
      (flushTrack c xs.length n) := by
  induction xs with
  | nil => exact fun n _ => .refl n
  | cons x xs ih =>
    intro n ht
    have hhead := publishHead_publishes c (trueRemaining c n.meas.exitCount) false ht
    obtain ⟨r, f, j, hwhole⟩ := hhead.rest
    have hrest : (publishHead c (trueRemaining c n.meas.exitCount) false n).track.exitTrack = xs := by
      rw [hwhole, Tracking.published, ht]
      rfl
    have hcount : (publishHead c (trueRemaining c n.meas.exitCount) false n).meas = n.meas := by rw [hwhole]
    have hmore := ih _ hrest
    rw [hcount] at hmore
    have hboth := hhead.trans hmore
    rw [Nat.add_comm 1 xs.length] at hboth
    rw [publication_cons]
    exact hboth

theorem trueRemaining_eq (p : Pos) : trueRemaining c p = remainingAt c.config p :=
  funext (trueRemaining_eq_remainingAt c p)

/-- A node with a record at the end of its exit track. -/
def Node.joined (y : ExitRecord) (n : Node) : Node :=
  { n with track := { n.track with exitTrack := n.track.exitTrack ++ [y] } }

/-- The records that are due published where the one that has joined is (R90). -/
def joinedDue (c : Settings) (y : ExitRecord) (m : Node) : Node :=
  if reaches m.meas.exitCount y.due then
    publishDue c (trueRemaining c m.meas.exitCount) m.track.exitTrack.length m
  else m

theorem joinTrack_eq (y : ExitRecord) (n : Node) : joinTrack c y n = joinedDue c y ((makeRoom c n).joined y) := rfl

/-- What goes on time with a record that has joined: where it is due, the due records at the head (R90). -/
theorem joinedDue_publishes (y : ExitRecord) (m : Node) :
    let due (x : ExitRecord) : Bool := reaches m.meas.exitCount x.due
    let gone := if due y then m.track.exitTrack.takeWhile due else []
    m.publishes gone.length (publication c.config true (trueRemaining c m.meas.exitCount) gone) (joinedDue c y m) := by
  intro due gone
  unfold joinedDue
  by_cases hdue : due y = true
  · have hgone : gone = m.track.exitTrack.takeWhile due := if_pos hdue
    rw [if_pos (by exact hdue), hgone]
    exact publishDue_publishes c (trueRemaining c m.meas.exitCount) _ m le_rfl
  · have hgone : gone = [] := if_neg hdue
    rw [if_neg (by exact hdue), hgone]
    exact .refl m

theorem joinedDue_counts (y : ExitRecord) (m : Node) : ∃ k r f j, k ≤ m.track.exitTrack.length ∧
    joinedDue c y m = { m with ring := r, flt := f, track := m.track.published k j } := by
  obtain ⟨r, f, j, h⟩ := (joinedDue_publishes c y m).rest
  refine ⟨_, r, f, j, ?_, h⟩
  split
  · exact (List.takeWhile_prefix _).length_le
  · exact Nat.zero_le _

/-- A closing record at an exit track with room: it joins, and where it is due the due records go on time (R90). -/
theorem joinTrack_publishes {y : ExitRecord} (hroom : n.track.exitTrack.length < 48) :
    let due (x : ExitRecord) : Bool := reaches n.meas.exitCount x.due
    let gone := if due y then (n.track.exitTrack ++ [y]).takeWhile due else []
    (n.joined y).publishes gone.length (publication c.config true (trueRemaining c n.meas.exitCount) gone)
      (joinTrack c y n) := by
  have hplain : makeRoom c n = n := if_neg (Nat.not_le.mpr hroom)
  rw [joinTrack_eq, hplain]
  exact joinedDue_publishes c y (n.joined y)

/-- A full track raises EXIT_TRACK_FULL as it gives up its head (R90). -/
theorem makeRoom_full (hfull : 48 ≤ n.track.exitTrack.length) : ∃ r f j, makeRoom c n =
    { n with ring := r, flt := f, track := n.track.published 1 j } := by
  cases ht : n.track.exitTrack with
  | nil =>
    rw [ht] at hfull
    exact absurd hfull (by decide)
  | cons x rest =>
    obtain ⟨r, f, j, hhead⟩ := (publishHead_publishes c (trueRemaining c n.meas.exitCount) false ht).rest
    obtain ⟨r', f', hraise⟩ := raise_correctable_rest c (publishHead c (trueRemaining c n.meas.exitCount) false n)
      (code := .exitTrackFull) rfl
    refine ⟨r', f', j, ?_⟩
    rw [makeRoom, if_pos hfull, hraise, hhead]

/-- A closing record joins the exit track, and what leaves the track is counted as published (R90). -/
theorem joinTrack_counts (y : ExitRecord) : ∃ k r f j, k ≤ (n.joined y).track.exitTrack.length ∧
    joinTrack c y n = { n with ring := r, flt := f, track := (n.joined y).track.published k j } := by
  by_cases hroom : n.track.exitTrack.length < 48
  · have hplain : makeRoom c n = n := if_neg (Nat.not_le.mpr hroom)
    rw [joinTrack_eq, hplain]
    exact joinedDue_counts c y (n.joined y)
  · have hfull := Nat.le_of_not_lt hroom
    obtain ⟨r, f, j, hmade⟩ := makeRoom_full c hfull
    have hdrop : n.track.exitTrack.drop 1 ++ [y] = (n.track.exitTrack ++ [y]).drop 1 :=
      (List.drop_append_of_le_length ((by decide : 1 ≤ 48).trans hfull)).symm
    have htrack : ((makeRoom c n).joined y).track = (n.joined y).track.published 1 j := by
      rw [hmade]
      exact congrArg (fun q => ({ n.track.published 1 j with exitTrack := q } : Tracking)) hdrop
    have hlen : ((makeRoom c n).joined y).track.exitTrack.length + 1 = (n.joined y).track.exitTrack.length := by
      have hjoined : (n.joined y).track.exitTrack.length = n.track.exitTrack.length + 1 := List.length_append
      rw [htrack, Tracking.published, List.length_drop, hjoined]
      rfl
    obtain ⟨k, r', f', j', hk, hdue⟩ := joinedDue_counts c y ((makeRoom c n).joined y)
    rw [htrack, published_twice] at hdue
    refine ⟨1 + k, r', f', j', ?_, ?_⟩
    · rw [← hlen, Nat.add_comm]
      exact Nat.succ_le_succ hk
    · rw [joinTrack_eq, hdue, hmade]
      rfl

end Publication

/-! ## The end of a run (R86, R92) -/

section RunEnds
variable (c : Settings) {n : Node} {g : OpenSegment} {id : Nat} {r : Schedule}

/-- The node with its open segment closed, before its record joins the exit track (R86). -/
def Node.segmentClosed (g : OpenSegment) (n : Node) : Node := { n with track := { n.track with
  openSeg := none, lastClosed := g.number
  counts := { n.track.counts with closed := satInc n.track.counts.closed } } }

theorem closeSegment_joins (tail : Bool) (hg : n.track.openSeg = some g) (ha : n.sched.active = some (id, r))
    (hs : n.seq.stand ≠ .rolling) :
    closeSegment c tail n = joinTrack c (closeRecord c tail id r g) (n.segmentClosed g) := by
  obtain ⟨⟨rg, f, t, hjoin, _⟩, _⟩ := joinTrack_keeps c (n.segmentClosed g) (closeRecord c tail id r g)
  unfold closeSegment
  rw [hg, ha]
  dsimp only
  refine if_neg fun h => hs ?_
  exact (congrArg (fun m : Node => m.seq.stand) hjoin).symm.trans h

/-- What a run's end leaves in the exit track and the weld list: nothing (R92). -/
theorem endRun_empties : ∃ (rg : RingPort) (f : FaultUnit) (t : Tracking) (gp : GapControl),
    endRun c n = { n with ring := rg, flt := f, gap := gp, track := { t with
    exitTrack := [], openSeg := none, weldList := [], running := false } } := by
  obtain ⟨rg, f, t, gp, hclose⟩ := closeSegment_rest c n true
  obtain ⟨rg', f', j, hflush⟩ := (flushTrack_publishes c _ (closeSegment c true n) rfl).rest
  have hempty : ((closeSegment c true n).track.published (closeSegment c true n).track.exitTrack.length j).exitTrack
      = [] := List.drop_length
  refine ⟨rg', f', (closeSegment c true n).track.published (closeSegment c true n).track.exitTrack.length j, gp, ?_⟩
  unfold endRun
  dsimp only
  rw [hflush, ← hempty]
  rw [hclose]

variable (hg : n.track.openSeg = some g) (ha : n.sched.active = some (id, r)) (hs : n.seq.stand ≠ .rolling)
include hg ha hs

/-- What a run's end counts (R86, R90, R92). -/
theorem endRun_counts : ∃ rg f j, endRun c n = { n with ring := rg, flt := f, track := { n.track with
    exitTrack := [], openSeg := none, weldList := [], running := false, lastClosed := g.number
    counts := { n.track.counts with
      closed := satInc n.track.counts.closed
      published := satAdd n.track.counts.published (n.track.exitTrack.length + 1), publishRefused := j } } } := by
  obtain ⟨k, rg, f, j, hk, hjoin⟩ := joinTrack_counts c (n := n.segmentClosed g) (closeRecord c true id r g)
  have hclose := (closeSegment_joins c true hg ha hs).trans hjoin
  obtain ⟨rg', f', j', hflush⟩ := (flushTrack_publishes c _ (closeSegment c true n) rfl).rest
  have hall : ((n.segmentClosed g).joined (closeRecord c true id r g)).track.exitTrack.length =
      n.track.exitTrack.length + 1 := List.length_append
  have hleft : (closeSegment c true n).track.exitTrack.length = n.track.exitTrack.length + 1 - k := by
    rw [hclose, Tracking.published, List.length_drop, hall]
  have htrack : (closeSegment c true n).track.published (closeSegment c true n).track.exitTrack.length j' =
      ((n.segmentClosed g).joined (closeRecord c true id r g)).track.published (n.track.exitTrack.length + 1) j' := by
    rw [hleft, hclose, published_twice, Nat.add_sub_cancel' (hall ▸ hk)]
  refine ⟨rg', f', j', ?_⟩
  unfold endRun
  dsimp only
  rw [hflush, htrack, Tracking.published, iterate_satInc]
  have hempty : ((n.segmentClosed g).joined (closeRecord c true id r g)).track.exitTrack.drop
      (n.track.exitTrack.length + 1) = [] := by
    rw [← hall]
    exact List.drop_length
  rw [hempty, hclose]
  rfl

/-- What a run's end publishes, given room in the exit track for the tail record (R90, R92). -/
theorem endRun_publishes (hroom : n.track.exitTrack.length < 48) :
    let y := closeRecord c true id r g
    let all := n.track.exitTrack ++ [y]
    let due (x : ExitRecord) : Bool := reaches n.meas.exitCount x.due
    let onTime := if due y then all.takeWhile due else []
    let remaining := remainingAt c.config n.meas.exitCount
    ∃ m : Node, ((n.segmentClosed g).joined y).publishes all.length (publication c.config true remaining onTime ++
        publication c.config false remaining (all.drop onTime.length)) m ∧
      endRun c n = { m with track := { m.track with openSeg := none, weldList := [], running := false } } := by
  intro y all due onTime remaining
  have hjoin := joinTrack_publishes c (n := n.segmentClosed g) (y := y) hroom
  have hclose := closeSegment_joins c true hg ha hs
  rw [← hclose] at hjoin
  obtain ⟨rg, f, j, hwhole⟩ := hjoin.rest
  have hleft : (closeSegment c true n).track.exitTrack = all.drop onTime.length := by
    rw [hwhole]
    rfl
  have hcount : (closeSegment c true n).meas = n.meas := by
    rw [hwhole]
    rfl
  have hflush := flushTrack_publishes c _ (closeSegment c true n) hleft
  rw [hcount, trueRemaining_eq] at hflush
  rw [trueRemaining_eq] at hjoin
  have hlen : onTime.length + (all.drop onTime.length).length = all.length := by
    rw [List.length_drop]
    refine Nat.add_sub_cancel' ?_
    rw [show onTime = if due y then all.takeWhile due else [] from rfl]
    split
    · exact (List.takeWhile_prefix _).length_le
    · exact Nat.zero_le _
  refine ⟨flushTrack c (all.drop onTime.length).length (closeSegment c true n), hlen ▸ hjoin.trans hflush, ?_⟩
  unfold endRun
  dsimp only
  rw [hleft]

end RunEnds

end Sys2Proof.Machine
end

section
/-! SUPPORT. Force samples (R67 to R70, R115 to R118): the sample, the load-off and the overload mark. -/

namespace Sys2Proof.Machine

set_option Elab.async false

/-! ## The sample -/

/-- The force stage with a valid value, and the band of its total (R67, R69). -/
def Meas.forced (c : NodeConfig) (side : Side) (force : Nat) (m : Meas) : Meas :=
  let m1 := m.putForce side { value := min force 30000, valid := true }
  { m1 with band := c.bandEdges.countP (· ≤ m1.forceOS.value + m1.forceDS.value) }

/-- The node with a measurement. -/
def Node.measured (m : Meas) (n : Node) : Node := { n with meas := m }

/-- The node with a side of the force stage marked invalid. -/
def Node.unforced (side : Side) (n : Node) : Node :=
  n.measured (n.meas.putForce side { n.meas.force side with valid := false })

/-- No total force limit is exceeded (R70). -/
def Node.loadWithin (n : Node) (total : Nat) : Prop := ∀ id r, n.sched.active = some (id, r) → total ≤ r.forceLimit

section Sample
variable (c : Settings) {n : Node} {side : Side} {force : Nat}

theorem forceValid_eq (hs : n.seq.stand ≠ .starting) : forceValid c side force n =
    updateOverload c (updateLoad c (n.measured (n.meas.forced c.config side force))) := by
  unfold forceValid updateBand
  simp only [if_neg hs]
  rfl

theorem updateLoad_rest (hs : n.seq.stand ≠ .starting)
    (hon : ¬ (n.meas.loadOn = false ∧ c.config.loadOn ≤ n.meas.total))
    (hoff : ¬ (n.meas.loadOn = true ∧ n.meas.total ≤ c.config.loadOff)) : updateLoad c n = n := by
  unfold updateLoad
  rw [if_neg hs, if_neg (by simpa using hon), if_neg (by simpa using hoff)]

theorem updateLoad_on (hs : n.seq.stand ≠ .starting)
    (hon : n.meas.loadOn = false ∧ c.config.loadOn ≤ n.meas.total) :
    updateLoad c n = loadOnEvent c (n.measured { n.meas with loadOn := true }) := by
  obtain ⟨hload, htotal⟩ := hon
  unfold updateLoad
  rw [if_neg hs, hload]
  exact if_pos (by simpa using htotal)

theorem updateLoad_off (hs : n.seq.stand ≠ .starting)
    (hoff : n.meas.loadOn = true ∧ n.meas.total ≤ c.config.loadOff) :
    updateLoad c n = loadOffEvent c (n.measured { n.meas with loadOn := false }) := by
  obtain ⟨hload, htotal⟩ := hoff
  unfold updateLoad
  rw [if_neg hs, hload, if_neg (by simp)]
  exact if_pos (by simpa using htotal)

theorem loadOffEvent_unexpected (hs : n.seq.stand = .threading ∨ n.seq.stand = .rolling) :
    loadOffEvent c n = raise c .unexpectedLoad n := by
  obtain hs | hs := hs <;> simp only [loadOffEvent, hs]

theorem loadOffEvent_tailing (hs : n.seq.stand = .tailing) :
    loadOffEvent c n = enterQuiet c (settle c (endRun c n)) := by simp only [loadOffEvent, hs]

/-- The overload mark stays clear outside the strip states and within the force limit (R70). -/
theorem updateOverload_clear (hm : n.meas.overload = false)
    (h : n.seq.stand.strip = false ∨ n.loadWithin n.meas.total) : updateOverload c n = n := by
  unfold updateOverload
  split
  next => rfl
  next id r ha =>
    rw [hm]
    refine (if_pos rfl).trans (if_neg fun hover => ?_)
    simp only [Bool.and_eq_true, decide_eq_true_eq] at hover
    obtain ⟨hstrip, hlimit⟩ := hover
    obtain h | h := h
    · exact Bool.false_ne_true (h.symm.trans hstrip)
    · exact absurd (h id r ha) (Nat.not_le.mpr hlimit)

theorem updateOverload_sets (hm : n.meas.overload = false) (hs : n.seq.stand.strip = true) {id : Nat} {r : Schedule}
    (ha : n.sched.active = some (id, r)) (hover : r.forceLimit < n.meas.total) :
    updateOverload c n = raise c .overload (n.measured { n.meas with overload := true }) := by
  unfold updateOverload
  rw [ha]
  dsimp only
  rw [hm, hs]
  exact (if_pos rfl).trans (if_pos (by simpa using hover))

theorem updateOverload_ends (hm : n.meas.overload = true) {id : Nat} {r : Schedule}
    (ha : n.sched.active = some (id, r)) (hunder : n.meas.total ≤ 15 * r.forceLimit / 16) :
    updateOverload c n = clearHold c .overload (n.measured { n.meas with overload := false }) := by
  unfold updateOverload
  rw [ha]
  dsimp only
  rw [hm]
  exact (if_neg (by simp)).trans (if_pos hunder)

/-- Behind a trip the overload mark is clear, and stays so. -/
theorem updateOverload_tripped {m : Node} {kind detail : Byte} (h : n.tripsOn c kind detail m) :
    updateOverload c m = m := by
  obtain ⟨⟨hseq, _, _, hmeas, _⟩, _⟩ := h
  refine updateOverload_clear c ?_ (.inl ?_)
  · rw [hmeas]
  · rw [hseq]
    rfl

theorem forceInvalid_stays (h : (n.meas.force side).valid = false) : forceInvalid c side n = n :=
  if_neg (by rw [h]; exact Bool.false_ne_true)

theorem forceInvalid_raises (h : (n.meas.force side).valid = true) :
    forceInvalid c side n = raise c .forceSensor (n.unforced side) := if_pos h

theorem cls_forceSensor_idle {st : StandState} (h : st.strip = false) : FaultCode.forceSensor.cls st = .correctable := by
  simp [FaultCode.cls, h]

theorem cls_forceSensor_strip {st : StandState} (h : st.strip = true) : FaultCode.forceSensor.cls st = .fatal := by
  simp [FaultCode.cls, h]

end Sample

theorem exec_forceSample {s : State} (hl : s.live) (side : Side) (valid : Bool) (force : Nat) :
    exec (.forceSample side valid force) s =
      .next (s.withNode (finish s.settings (if valid then forceValid s.settings side force s.node
        else forceInvalid s.settings side s.node))) := by
  have hexec : exec (.forceSample side valid force) s = s.act (fun c n =>
    if valid then forceValid c side force n else forceInvalid c side n) := rfl
  rw [hexec, State.act_live _ _ hl]

/-! ## The overload mark (R70, R118) -/

section Overload
variable {s : State} {m : Meas}

/-- An overload under the route HOLD (R70, R117). -/
theorem overload_holds (hroute : s.settings.config.route = .hold) (hs : s.node.seq.stand.strip = true) :
    let t := s.withNode (finish s.settings (raise s.settings .overload (s.node.measured m)))
    t.node.meas = m ∧ t.node.seq.stand = s.node.seq.stand ∧ t.node.seq.holds.overload = true ∧
      s.keepsBut [.meas, .seq, .gap, .ring, .flt] t ∧ s.reports .overload s.node t := by
  intro t
  have hraise := raise_hold s.settings (s.node.measured m) .overload .overload rfl hroute rfl
  have hset := setHold_holding s.settings .overload (n := countEvent (eventOf .overload (s.node.measured m))
    (settle s.settings (s.node.measured m))) hs
  rw [hset] at hraise
  refine ⟨(congrArg Node.meas hraise).trans rfl, (congrArg (fun n : Node => n.seq.stand) hraise).trans rfl,
    (congrArg (fun n : Node => n.seq.holds.overload) hraise).trans rfl, keepsBut_finish ?_ (by decide) (by decide),
    reports_hold (k := .overload) rfl hroute rfl rfl rfl rfl rfl rfl⟩
  rw [hraise]
  exact Node.keepsBut_of_overlay rfl

/-- The cause OVERLOAD cleared touches the causes, the Gap Controller and the transmit side only (R118). -/
theorem clearHold_overload (c : Settings) (n : Node) : ∃ g r f, clearHold c .overload n = { n with
    seq := { n.seq with holds := { n.seq.holds with overload := false } }, gap := g, ring := r, flt := f } := by
  cases hk : n.seq.holds.has .overload with
  | false =>
    rw [clearHold_unset c .overload hk, ← show n.seq.holds.put .overload false =
      { n.seq.holds with overload := false } from rfl, Holds.put_of_has hk]
    exact ⟨n.gap, n.ring, n.flt, rfl⟩
  | true =>
    obtain ⟨g, r, f, hre⟩ := reassembleNow_rest c (dropHold .overload n)
    unfold clearHold
    rw [hk]
    split
    next h => exact absurd h (by decide)
    next =>
      split
      next => exact ⟨g, r, f, hre⟩
      next => exact ⟨n.gap, n.ring, n.flt, rfl⟩

/-- The end of an overload (R70, R118). -/
theorem overload_ends :
    let t := s.withNode (finish s.settings (clearHold s.settings .overload (s.node.measured m)))
    t.node.meas = m ∧ s.keepsBut [.meas, .seq, .gap, .ring, .flt] t ∧
      s.recovers { s.node.seq.holds with overload := false } t := by
  intro t
  obtain ⟨g, r, f, hclear⟩ := clearHold_overload s.settings (s.node.measured m)
  refine ⟨(congrArg Node.meas hclear).trans rfl, keepsBut_finish ?_ (by decide) (by decide),
    recovers_clearHold (s := s.withNode (s.node.measured m)) .overload rfl fun _ => ⟨rfl, rfl⟩⟩
  rw [hclear]
  exact Node.keepsBut_of_overlay rfl

end Overload

/-! ## The load-off in TAILING (R92, R115) -/

section Tailing
variable (c : Settings) {n : Node}

/-- The node that a load-off in TAILING leaves: the run ended, and the stand in QUIET. -/
theorem tailing_quiets (hs : n.seq.stand = .tailing) :
    let m := enterQuiet c (settle c (endRun c n))
    m.seq = { n.seq with stand := .quiet, holds := Holds.empty } ∧ m.meas = n.meas.standDown ∧
      m.track = (endRun c n).track.clearArrival ∧ m.gap.base = some c.config.standbyGap ∧
      m.gap.reference = c.config.standbyGap ∧ m.ring = (settle c (endRun c n)).ring ∧
      m.flt = (settle c (endRun c n)).flt := by
  intro m
  obtain ⟨r, f, t, g, hend⟩ := endRun_rest c n
  have hseq : (settle c (endRun c n)).seq = n.seq := (settle_seq c _).trans ((congrArg Node.seq hend).trans rfl)
  have hmeas : (settle c (endRun c n)).meas = n.meas := (settle_meas c _).trans ((congrArg Node.meas hend).trans rfl)
  have hquiet : m = _ := enterQuiet_eq c (n := settle c (endRun c n)) (by
    rw [hseq, hs]
    exact StandState.noConfusion)
  rw [hquiet, hseq, hmeas]
  exact ⟨rfl, rfl, rfl, refer_base .., refer_reference .., rfl, rfl⟩

end Tailing

end Sys2Proof.Machine
end

section
/-! SUPPORT. The load-off in TAILING (R90, R92, R110, R115): what it leaves, what it counts and what it publishes. -/

namespace Sys2Proof.Machine

set_option Elab.async false

section TailingEnds
variable {s : State} {m : Meas}

/-- The machine behind a load-off in TAILING at which the measurement was `m`. -/
def State.runEnded (m : Meas) (s : State) : State := s.withNode (finish s.settings
  (enterQuiet s.settings (settle s.settings (endRun s.settings (s.node.measured m)))))

variable (hs : s.node.seq.stand = .tailing)
include hs

theorem runEnded_seq : (s.runEnded m).node.seq = { s.node.seq with stand := .quiet, holds := Holds.empty } :=
  (tailing_quiets s.settings (n := s.node.measured m) hs).1

theorem runEnded_meas : (s.runEnded m).node.meas = m.standDown :=
  (tailing_quiets s.settings (n := s.node.measured m) hs).2.1

theorem runEnded_track :
    (s.runEnded m).node.track = (endRun s.settings (s.node.measured m)).track.clearArrival :=
  (tailing_quiets s.settings (n := s.node.measured m) hs).2.2.1

theorem runEnded_gap : (s.runEnded m).node.gap.base = some s.settings.config.standbyGap ∧
    (s.runEnded m).node.gap.reference = s.settings.config.standbyGap := by
  obtain ⟨_, _, _, hbase, href, _⟩ := tailing_quiets s.settings (n := s.node.measured m) hs
  exact ⟨hbase, href⟩

/-- What the end of the run and the entry to QUIET leave of the Tracking Unit: nothing under way (R92, R110). -/
theorem runEnded_empties : (s.runEnded m).node.track.openSeg = none ∧ (s.runEnded m).node.track.running = false ∧
    (s.runEnded m).node.track.exitTrack = [] ∧ (s.runEnded m).node.track.arrival = [] ∧
    (s.runEnded m).node.track.weldList = [] := by
  obtain ⟨rg, f, t, gp, hend⟩ := endRun_empties s.settings (n := s.node.measured m)
  rw [runEnded_track hs, hend]
  exact ⟨rfl, rfl, rfl, rfl, rfl⟩

variable {g : OpenSegment} {id : Nat} {r : Schedule} (hg : s.node.track.openSeg = some g)
  (ha : s.node.sched.active = some (id, r))
include hg ha

/-- What the end of the run counts (R86, R90). -/
theorem runEnded_counts : (s.runEnded m).node.track.lastClosed = g.number ∧
    (s.runEnded m).node.track.nextNumber = s.node.track.nextNumber ∧
    (s.runEnded m).node.track.counts.closed = satInc s.node.track.counts.closed ∧
    (s.runEnded m).node.track.counts.published =
      satAdd s.node.track.counts.published (s.node.track.exitTrack.length + 1) := by
  obtain ⟨rg, f, j, hend⟩ := endRun_counts s.settings (n := s.node.measured m) hg ha (by
    rw [show (s.node.measured m).seq.stand = .tailing from hs]
    exact StandState.noConfusion)
  rw [runEnded_track hs, hend]
  exact ⟨rfl, rfl, rfl, rfl⟩

/-- What the end of the run publishes, given room in the exit track for the tail record (R90, R92). -/
theorem runEnded_publishes (hroom : s.node.track.exitTrack.length < 48) :
    let c := s.settings.config
    let y := closeRecord s.settings true id r g
    let all := s.node.track.exitTrack ++ [y]
    let due (x : ExitRecord) : Bool := reaches m.exitCount x.due
    let onTime := if due y then all.takeWhile due else []
    let remaining := remainingAt c m.exitCount
    let frames := publication c true remaining onTime ++ publication c false remaining (all.drop onTime.length)
    (s.node.memb.ring.admits .seg = true → s.offers frames (s.runEnded m) ∧
      (s.roomFor frames.length →
        (s.runEnded m).node.track.counts.publishRefused = s.node.track.counts.publishRefused)) ∧
    (s.node.memb.ring.admits .seg = false → s.offers [] (s.runEnded m) ∧
      (s.runEnded m).node.track.counts.publishRefused =
        satInc^[frames.length] s.node.track.counts.publishRefused) := by
  intro c y all due onTime remaining frames
  obtain ⟨u, hpublish, hend⟩ := endRun_publishes s.settings (n := s.node.measured m) hg ha (by
    rw [show (s.node.measured m).seq.stand = .tailing from hs]
    exact StandState.noConfusion) hroom
  obtain ⟨_, _, _, _, _, hring, hflt⟩ := tailing_quiets s.settings (n := s.node.measured m) hs
  have hrefused : (s.runEnded m).node.track.counts.publishRefused = u.track.counts.publishRefused := by
    rw [runEnded_track hs, hend]
    rfl
  have hsent : ∀ fs, s.roomFor fs.length → s.sent fs u → s.sent fs
      (enterQuiet s.settings (settle s.settings (endRun s.settings (s.node.measured m)))) := by
    intro fs hfits hu
    have hsettle : s.sent fs (settle s.settings (endRun s.settings (s.node.measured m))) :=
      State.sent.settle (s := s) (by rw [hend]; exact hu) hfits s.settings
    exact ⟨hflt.trans hsettle.1, hring.trans hsettle.2⟩
  refine ⟨fun hadmits => ⟨offers_of_sent fun hfits => ?_, fun hfits => ?_⟩,
    fun hno => ⟨offers_of_sent fun hfits => ?_, ?_⟩⟩
  · exact hsent _ hfits (hpublish.sent hadmits s [] State.sent_nil hfits).1
  · exact hrefused.trans (hpublish.sent hadmits s [] State.sent_nil hfits).2
  · obtain ⟨hkept, hfkept, _⟩ := hpublish.refused hno
    exact hsent _ hfits (State.sent_nil hkept hfkept)
  · obtain ⟨_, _, hcount⟩ := hpublish.refused hno
    exact hrefused.trans hcount

end TailingEnds

end Sys2Proof.Machine
end

section
/-! SUPPORT. Entry to THREADING on a load-on (R81, R111, R112): the run that begins, and the conditions that stand. -/

namespace Sys2Proof.Machine

set_option Elab.async false

/-! ## The run begun (R81, R112) -/

/-- What a load-on in READY makes of a node whose measurement was `m`, the stand state and the causes apart. -/
def Node.beginsRun (n : Node) (m : Meas) (r : Schedule) (t : Node) : Prop :=
  t.meas = { m with loadOn := true, exitPeak := m.exitCount } ∧ t.gap.base = some r.threadGap ∧
    (t.gap.reference : Int) =
      max (r.gapMin : Int) (min r.gapMax ((r.threadGap : Int) + n.gap.trims n.seq.holds.any)) ∧
    t.track.running = true ∧ t.track.origin = m.exitCount ∧ t.track.exitCoil = n.track.entryCoil ∧
    t.track.weldList = [] ∧ t.track.nextNumber = n.track.nextNumber + 1 ∧
    (∃ g, t.track.openSeg = some g ∧ g.number = n.track.nextNumber ∧ g.index = 0 ∧ g.spanStart = m.exitCount ∧
      g.head = true ∧ g.coil = n.track.entryCoil ∧ g.good = 0)

/-- The first segment of a run (R80, R81). -/
def firstOf (count : Pos) (t : Tracking) : OpenSegment :=
  { number := t.nextNumber, index := 0, spanStart := count, coil := t.entryCoil, head := true, weld := false, good := 0
    sum := 0, suspect := 0 }

theorem beginRun_eq (c : Settings) (count : Pos) (t : Tracking) : t.beginRun c count = { t with
    running := true, origin := count, weldList := [], exitCoil := t.entryCoil, nextNumber := t.nextNumber + 1
    openSeg := some (firstOf count t) } := by
  have hstart : count + mm (0 * c.config.segLength) = count := by
    rw [Nat.zero_mul]
    exact BitVec.add_zero count
  have hrun : t.beginRun c count = { t with
      running := true, origin := count, weldList := [], exitCoil := t.entryCoil, nextNumber := t.nextNumber + 1
      openSeg := some { firstOf count t with spanStart := count + mm (0 * c.config.segLength) } } := rfl
  rw [hrun, hstart]
  rfl

/-- The node with the run begun and the stand in THREADING, before the demand is reassembled. -/
def Node.runBegun (c : Settings) (n : Node) : Node := { n with
  seq := { n.seq with stand := .threading }
  track := n.track.beginRun c n.meas.exitCount
  meas := { n.meas with exitPeak := n.meas.exitCount }
  gap := { n.gap with base := some n.threadGap } }

theorem beginThreading_eq (c : Settings) (n : Node) : beginThreading c n = reassembleNow c (n.runBegun c) := rfl

section Begins
variable (c : Settings) {n : Node} {m : Meas} {id : Nat} {r : Schedule}

/-- Entry to THREADING up to the standing conditions steers the Gap Controller, and may report. -/
theorem beginThreading_steers (n : Node) : ∃ g rg f,
    beginThreading c n = { n.runBegun c with gap := g, ring := rg, flt := f } ∧ (n.runBegun c).gap.steersTo g := by
  rw [beginThreading_eq]
  exact reassembleNow_steers c _

theorem beginThreading_begins (ha : n.sched.active = some (id, r)) :
    n.beginsRun m r (beginThreading c (n.measured { m with loadOn := true })) := by
  obtain ⟨g, rg, f, hbegin, hsteers⟩ := beginThreading_steers c (n.measured { m with loadOn := true })
  have hthread : (n.measured { m with loadOn := true }).threadGap = r.threadGap := by
    unfold Node.threadGap
    rw [show (n.measured { m with loadOn := true }).sched.active = some (id, r) from ha]
  have hbase : ((n.measured { m with loadOn := true }).runBegun c).gap.base = some r.threadGap := congrArg some hthread
  have href := reassembleNow_reference c (n := (n.measured { m with loadOn := true }).runBegun c) hbase ha rfl
  rw [← beginThreading_eq] at href
  have htrack : (beginThreading c (n.measured { m with loadOn := true })).track = n.track.beginRun c m.exitCount :=
    (congrArg Node.track hbegin).trans rfl
  refine ⟨(congrArg Node.meas hbegin).trans rfl, ?_, href, ?_⟩
  · rw [show (beginThreading c (n.measured { m with loadOn := true })).gap = g from congrArg Node.gap hbegin, hsteers]
    exact hbase
  · rw [htrack, beginRun_eq]
    exact ⟨rfl, rfl, rfl, rfl, rfl, firstOf m.exitCount n.track, rfl, rfl, rfl, rfl, rfl, rfl, rfl⟩

theorem loadOnEvent_ready (hs : n.seq.stand = .ready) :
    loadOnEvent c n = raiseAll c (standingFaults (beginThreading c n)) (beginThreading c n) := by
  simp only [loadOnEvent, hs]
  rfl

/-- The conditions that stand are those of the marks and of the sensors. -/
theorem standingFaults_begin : standingFaults (beginThreading c n) = standingFaults n := by
  obtain ⟨g, rg, f, hbegin, _⟩ := beginThreading_steers c n
  rw [hbegin]
  rfl

end Begins

/-! ## One standing condition (R179, R182) -/

/-- The stand is tripped by a standing condition under a route (R182). -/
def standingTrips (c : Settings) (k : FaultCode) : Bool :=
  c.config.route = .trip || (k ≠ .ringBreak && k ≠ .neighbourLost)

/-- The codes of conditions that can stand at entry to THREADING. -/
def FaultCode.stands (k : FaultCode) : Prop := k = .ringBreak ∨ k = .neighbourLost ∨ k = .forceSensor ∨ k = .tiltLimit

theorem standingFaults_stand (n : Node) : ∀ k ∈ standingFaults n, k.stands := by
  intro k hk
  unfold standingFaults at hk
  simp only [List.mem_append] at hk
  have hone {p : Prop} [Decidable p] {j : FaultCode} (h : k ∈ if p then [j] else []) : k = j := by
    split at h
    · exact List.mem_singleton.mp h
    · exact absurd h List.not_mem_nil
  have hother {p : Prop} [Decidable p] {j : FaultCode} (h : k ∈ if p then [] else [j]) : k = j := by
    split at h
    · exact absurd h List.not_mem_nil
    · exact List.mem_singleton.mp h
  obtain ((((h | h) | h) | h) | h) | h := hk
  · exact .inl (hone h)
  · exact .inr (.inl (hone h))
  · exact .inr (.inl (hone h))
  · exact .inr (.inr (.inl (hother h)))
  · exact .inr (.inr (.inl (hother h)))
  · exact .inr (.inr (.inr (hone h)))

end Sys2Proof.Machine
end

section
/-! SUPPORT. The conditions that stand at entry to THREADING, handled one after the other (R117, R163, R179, R182,
log 18). -/

namespace Sys2Proof.Machine

set_option Elab.async false

/-! ## One condition -/

section One
variable (c : Settings) {k : FaultCode} {n m : Node}

/-- The cause that a condition sets where it holds the stand (R182). -/
def FaultCode.standingCause (k : FaultCode) : HoldCause := if k = .ringBreak then .ring else .neighbour

theorem standing_holds_iff : standingTrips c k = false ↔
    c.config.route = .hold ∧ (k = .ringBreak ∨ k = .neighbourLost) := by
  unfold standingTrips
  cases c.config.route with
  | trip => simp
  | hold =>
    simp only [decide_false, Bool.false_or, Bool.and_eq_false_iff, decide_eq_false_iff_not, not_not, true_and, reduceCtorEq]

variable (hx : n.seq.stand = .threading)
include hx

theorem routeEvent_holds (h : standingTrips c k = false) (m : Node) :
    routeEvent c (eventOf k n) m = setHold c k.standingCause m := by
  obtain ⟨hroute, hk⟩ := (standing_holds_iff c).mp h
  unfold routeEvent eventOf
  rw [hx, hroute]
  obtain rfl | rfl := hk
  · rfl
  · rfl

theorem routeEvent_causes (hk : k.stands) (h : standingTrips c k = true) (m : Node) :
    routeEvent c (eventOf k n) m = localCause c 2 (byte k.number) false m := by
  unfold routeEvent eventOf
  rw [hx]
  obtain rfl | rfl | rfl | rfl := hk
  · have hroute : c.config.route = .trip := by simpa [standingTrips] using h
    simp only [hroute]
    rfl
  · have hroute : c.config.route = .trip := by simpa [standingTrips] using h
    simp only [hroute]
    rfl
  · rfl
  · rfl

/-- A condition that holds the stand in a strip state (R117). -/
theorem handleEvent_holds (h : standingTrips c k = false) (hs : m.seq.stand.strip = true) : ∃ r f,
    handleEvent c (eventOf k n) m = { m.holding c k.standingCause with ring := r, flt := f } := by
  have hset : setHold c k.standingCause (countEvent (eventOf k n) m) =
      (countEvent (eventOf k n) m).holding c k.standingCause := setHold_holding c _ hs
  unfold handleEvent
  rw [routeEvent_holds c hx h, hset]
  exact ⟨_, _, rfl⟩

/-- Outside the strip states it holds nothing (R116). -/
theorem handleEvent_idle (h : standingTrips c k = false) (hs : m.seq.stand.strip = false) : ∃ r f,
    handleEvent c (eventOf k n) m = { m with ring := r, flt := f } := by
  have hset : setHold c k.standingCause (countEvent (eventOf k n) m) = countEvent (eventOf k n) m :=
    if_pos (by rw [show (countEvent (eventOf k n) m).seq.stand.strip = false from hs]; rfl)
  unfold handleEvent
  rw [routeEvent_holds c hx h, hset]
  exact ⟨_, _, rfl⟩

/-- A condition that trips the stand (R163, R167). -/
theorem handleEvent_trips (hk : k.stands) (h : standingTrips c k = true) (hu : m.untripped) :
    m.tripsOn c 2 (byte k.number) (handleEvent c (eventOf k n) m) := by
  have htrips := localCause_tripsOn c (countEvent (eventOf k n) m) 2 (byte k.number) false hu
  unfold handleEvent
  rw [routeEvent_causes c hx hk h]
  exact htrips

/-- A further one is a local repeat (R163). -/
theorem handleEvent_repeats (hk : k.stands) (h : standingTrips c k = true) (hs : m.seq.stand = .tripped)
    (hrec : m.trip.recorded c.station = true) : ∃ r f, handleEvent c (eventOf k n) m = { m with
      trip := { m.trip with localRepeats := satInc m.trip.localRepeats }, ring := r, flt := f } := by
  have hcause : localCause c 2 (byte k.number) false (countEvent (eventOf k n) m) = { countEvent (eventOf k n) m with
      trip := { m.trip with localRepeats := satInc m.trip.localRepeats } } := by
    unfold localCause
    rw [if_neg (by rw [show (countEvent (eventOf k n) m).seq.stand = .tripped from hs]; exact StandState.noConfusion)]
    exact (if_neg (by simp)).trans (if_pos hrec)
  unfold handleEvent
  rw [routeEvent_causes c hx hk h, hcause]
  exact ⟨_, _, rfl⟩

end One

/-! ## Several conditions -/

section All
variable (c : Settings) {x : Node} (hx : x.seq.stand = .threading)

/-- The conditions, raised at a node, handled one after the other. -/
def handleAll (c : Settings) (x : Node) (ks : List FaultCode) (m : Node) : Node :=
  ks.foldl (fun m k => handleEvent c (eventOf k x) m) m

theorem raiseAll_eq (ks : List FaultCode) : raiseAll c ks x = handleAll c x ks (settle c x) := by
  unfold raiseAll handleAll
  exact List.foldl_map

theorem handleAll_append (ks js : List FaultCode) (m : Node) :
    handleAll c x (ks ++ js) m = handleAll c x js (handleAll c x ks m) := List.foldl_append

/-- A node under hold causes, one after the other. -/
def Node.heldBy (c : Settings) (ks : List FaultCode) (n : Node) : Node :=
  ks.foldl (fun m k => m.holding c k.standingCause) n

include hx

theorem handleAll_holds (ks : List FaultCode) (h : ∀ k ∈ ks, standingTrips c k = false) : ∀ m : Node,
    m.seq.stand.strip = true → ∃ r f, handleAll c x ks m = { m.heldBy c ks with ring := r, flt := f } := by
  induction ks with
  | nil => exact fun m _ => ⟨m.ring, m.flt, rfl⟩
  | cons k ks ih =>
    intro m hs
    obtain ⟨r, f, hone⟩ := handleEvent_holds c hx (h k List.mem_cons_self) hs
    have hall (r : RingPort) (f : FaultUnit) : ∀ (js : List FaultCode) (u : Node),
        ({ u with ring := r, flt := f } : Node).heldBy c js = { u.heldBy c js with ring := r, flt := f } := by
      intro js
      induction js with
      | nil => exact fun u => rfl
      | cons j js ihj => exact fun u => ihj (u.holding c j.standingCause)
    obtain ⟨r', f', hmore⟩ := ih (fun j hj => h j (List.mem_cons_of_mem _ hj))
      { m.holding c k.standingCause with ring := r, flt := f } hs
    refine ⟨r', f', ?_⟩
    rw [show handleAll c x (k :: ks) m = handleAll c x ks (handleEvent c (eventOf k x) m) from rfl, hone, hmore, hall]
    rfl

/-- Behind a trip by a cause of this node's own the further conditions are local repeats, or hold nothing (R163). -/
theorem handleAll_repeats (ks : List FaultCode) (h : ∀ k ∈ ks, k.stands) : ∀ m : Node, m.seq.stand = .tripped →
    m.trip.recorded c.station = true → ∃ r f, handleAll c x ks m = { m with
      trip := { m.trip with localRepeats := satInc^[ks.countP (standingTrips c)] m.trip.localRepeats }
      ring := r, flt := f } := by
  induction ks with
  | nil => exact fun m _ _ => ⟨m.ring, m.flt, rfl⟩
  | cons k ks ih =>
    intro m hs hrec
    have hstep : handleAll c x (k :: ks) m = handleAll c x ks (handleEvent c (eventOf k x) m) := rfl
    have hrest := ih fun j hj => h j (List.mem_cons_of_mem _ hj)
    rw [hstep]
    cases htrips : standingTrips c k with
    | true =>
      obtain ⟨r, f, hone⟩ := handleEvent_repeats c hx (h k List.mem_cons_self) htrips hs hrec
      obtain ⟨r', f', hmore⟩ := hrest { m with
        trip := { m.trip with localRepeats := satInc m.trip.localRepeats }, ring := r, flt := f } hs hrec
      rw [List.countP_cons_of_pos htrips, hone, hmore]
      exact ⟨r', f', rfl⟩
    | false =>
      obtain ⟨r, f, hone⟩ := handleEvent_idle c hx htrips (m := m) (by rw [hs]; rfl)
      obtain ⟨r', f', hmore⟩ := hrest { m with ring := r, flt := f } hs hrec
      rw [List.countP_cons_of_neg (by rw [htrips]; exact Bool.false_ne_true), hone, hmore]
      exact ⟨r', f', rfl⟩

end All

end Sys2Proof.Machine
end

section
/-! SUPPORT. The conditions that stand at entry to THREADING (R36, R77, R117, R163, R180): the causes that hold the
stand, the trip, and the counters. -/

namespace Sys2Proof.Machine

set_option Elab.async false

/-! ## The causes that hold (R36, R117) -/

section Held
variable (c : Settings) {n : Node}

theorem holding_again (k : HoldCause) : (n.holding c k).holding c k = n.holding c k := by
  have hhas : (n.seq.holds.put k true).has k = true := by cases k <;> rfl
  have hput : (n.seq.holds.put k true).put k true = n.seq.holds.put k true := by cases k <;> rfl
  have hany := Holds.any_of_has hhas
  unfold Node.holding
  simp only [hhas, hput, hany, if_true, Bool.true_eq_false, and_false, if_false]

/-- A node whose ring has broken, or that has lost a neighbour, held by the causes RING and NEIGHBOUR. -/
def Node.heldFor (c : Settings) (broken lost : Bool) (n : Node) : Node :=
  let ringHeld := if broken then n.holding c .ring else n
  if lost then ringHeld.holding c .neighbour else ringHeld

/-- The conditions of a node that hold the stand, in the order of their raising. -/
def standingHolds (broken up down : Bool) : List FaultCode :=
  (if broken then [FaultCode.ringBreak] else []) ++ (if up then [FaultCode.neighbourLost] else []) ++
    (if down then [FaultCode.neighbourLost] else [])

theorem heldBy_standing (broken up down : Bool) :
    n.heldBy c (standingHolds broken up down) = n.heldFor c broken (up || down) := by
  have hlost : ∀ m : Node, m.heldBy c ((if up then [FaultCode.neighbourLost] else []) ++
      (if down then [FaultCode.neighbourLost] else [])) = if up || down then m.holding c .neighbour else m := by
    intro m
    cases up with
    | false => cases down <;> rfl
    | true =>
      cases down with
      | false => rfl
      | true => exact holding_again c .neighbour
  unfold standingHolds
  rw [List.append_assoc]
  cases broken with
  | false => exact hlost n
  | true => exact hlost (n.holding c .ring)

/-- The trims frozen where a hold begins (R117). -/
def GapControl.frozen (held : Bool) (g : GapControl) : GapControl := { g with
  frozenTrim := if held then g.frozenTrim else g.gapTrim
  frozenProfile := if held then g.frozenProfile else g.profileTrim }

theorem frozen_eq (held : Bool) (g : GapControl) :
    (if held then g else { g with frozenTrim := g.gapTrim, frozenProfile := g.profileTrim }) = g.frozen held := by
  cases held <;> rfl

/-- What the causes make of the node. -/
theorem heldFor_eq {broken lost : Bool} (h : (broken || lost) = true) : n.heldFor c broken lost = { n with
    seq := { n.seq with
      holds := { n.seq.holds with ring := n.seq.holds.ring || broken, neighbour := n.seq.holds.neighbour || lost }
      holdCount := if n.seq.holds.any then n.seq.holdCount else satInc n.seq.holdCount }
    memb := { n.memb with
      graceTimer := if broken = true ∧ n.seq.holds.ring = false then some c.config.ringBreakGrace
        else n.memb.graceTimer }
    gap := n.gap.frozen n.seq.holds.any } := by
  have hring : n.holding c .ring = { n with
      seq := { n.seq with
        holds := { n.seq.holds with ring := true }
        holdCount := if n.seq.holds.any then n.seq.holdCount else satInc n.seq.holdCount }
      memb := { n.memb with
        graceTimer := if n.seq.holds.ring = false then some c.config.ringBreakGrace else n.memb.graceTimer }
      gap := n.gap.frozen n.seq.holds.any } := by
    rw [← frozen_eq]
    simp only [Node.holding, Holds.put, Holds.has, true_and]
  cases broken with
  | false =>
    have hlost : lost = true := h
    subst hlost
    rw [← frozen_eq]
    simp only [Node.heldFor, Node.holding, Holds.put, Bool.or_true, Bool.or_false, Bool.false_eq_true, if_true, if_false,
      false_and, reduceCtorEq]
  | true =>
    cases lost with
    | false =>
      simp only [Node.heldFor, hring, Bool.or_true, Bool.or_false, Bool.false_eq_true, if_true, if_false, true_and]
    | true =>
      have hany : ({ n.seq.holds with ring := true } : Holds).any = true := rfl
      simp only [Node.heldFor, hring, Bool.or_true, if_true, true_and]
      simp only [Node.holding, Holds.put, hany, if_true, false_and, if_false, reduceCtorEq]

/-- Where no standing condition trips the stand, they are a ring break and lost neighbours. -/
theorem standingFaults_hold (h : ∀ k ∈ standingFaults n, standingTrips c k = false) :
    standingFaults n = standingHolds (n.memb.breakRecord ≠ .none) (n.memb.upstream.mark = .lost)
      (n.memb.downstream.mark = .lost) := by
  have hforce : ∀ k, k = FaultCode.forceSensor ∨ k = FaultCode.tiltLimit → k ∉ standingFaults n := by
    intro k hk hmem
    obtain ⟨_, hcode⟩ := (standing_holds_iff c).mp (h k hmem)
    obtain rfl | rfl := hk
    · exact hcode.elim (fun h => nomatch h) (fun h => nomatch h)
    · exact hcode.elim (fun h => nomatch h) (fun h => nomatch h)
  have hsensor := hforce .forceSensor (.inl rfl)
  have htilt := hforce .tiltLimit (.inr rfl)
  unfold standingFaults at hsensor htilt ⊢
  simp only [List.mem_append, not_or] at hsensor htilt
  obtain ⟨⟨⟨_, hos⟩, hds⟩, _⟩ := hsensor
  obtain ⟨_, htilt⟩ := htilt
  have hos' : n.meas.forceOS.valid = true := by
    by_contra hno
    exact hos (by rw [if_neg hno]; exact List.mem_singleton_self _)
  have hds' : n.meas.forceDS.valid = true := by
    by_contra hno
    exact hds (by rw [if_neg hno]; exact List.mem_singleton_self _)
  have htilt' : ¬ n.meas.tiltMark = true := fun hyes => htilt (by rw [if_pos hyes]; exact List.mem_singleton_self _)
  rw [if_pos hos', if_pos hds', if_neg htilt', List.append_nil, List.append_nil, List.append_nil]
  simp only [standingHolds, decide_eq_true_eq]

end Held

end Sys2Proof.Machine
end

section
/-! SUPPORT. How often a fault code is counted (R179, R180), where several faults are handled one after the other. -/

namespace Sys2Proof.Machine

set_option Elab.async false

/-! ## A number of events of a code -/

/-- From one Fault Unit to another: `i` events of a code have been counted. -/
def FaultUnit.Counts (k : FaultCode) (i : Nat) (f g : FaultUnit) : Prop :=
  f.none k → f.counters.length = 32 →
    g.none k ∧ g.counters.length = 32 ∧ g.counter k = satInc^[i] (f.counter k)

section Units
variable {f g u : FaultUnit} {k : FaultCode} {i j : Nat}

theorem FaultUnit.Counts.refl (f : FaultUnit) : f.Counts k 0 f := fun hn hl => ⟨hn, hl, rfl⟩

theorem FaultUnit.Counts.trans (h : f.Counts k i g) (h' : g.Counts k j u) : f.Counts k (j + i) u := by
  intro hn hl
  obtain ⟨hgn, hgl, hg⟩ := h hn hl
  obtain ⟨hun, hul, hu⟩ := h' hgn hgl
  exact ⟨hun, hul, by rw [hu, hg, Function.iterate_add_apply]⟩

theorem FaultUnit.Spares.counts (h : f.Spares k g) : f.Counts k 0 g := fun hn hl =>
  ⟨h.waits hn, (h.whole hn).trans hl, h.counter hn⟩

theorem counts_count {ev : FaultEvent} (h : ev.code = k) : f.Counts k 1 (f.count ev) := fun hn hl =>
  ⟨hn, (length_bumpAt _ _).trans hl, counter_count h hl⟩

end Units

/-! ## One event handled -/

section Handled
variable {k : FaultCode} (hk : k.prompt) (c : Settings) (n : Node)
include hk

theorem spares_abortPreset : n.flt.Spares k (abortPreset c n).flt := by
  unfold abortPreset endEntryDeferred
  split
  next => exact .refl _
  next e _ =>
    exact spares_offer hk (ctxOf c n) (replyFrame e.requester e.tag e.index .aborted []) ⟨n.ring, n.flt⟩

theorem spares_takeCause (kind detail : Byte) : n.flt.Spares k (takeCause c kind detail n).flt := by
  unfold takeCause
  split
  · exact .refl _
  · unfold enterTrippedIfNot
    split
    · exact .refl _
    · exact spares_abortPreset hk c (enterTrippedQuietly c (placeOwn c (ownOrigin c kind detail n) n))

theorem spares_localCause (kind detail : Byte) (a : Bool) : n.flt.Spares k (localCause c kind detail a n).flt := by
  unfold localCause
  split
  · exact .refl _
  · split
    · exact spares_takeCause hk c n kind detail
    · exact spares_takeCause hk c n kind detail

theorem spares_routeEvent (ev : FaultEvent) : n.flt.Spares k (routeEvent c ev n).flt := by
  unfold routeEvent
  split
  · exact .refl _
  · exact spares_localCause hk c n _ _ _
  · split
    · exact spares_localCause hk c n _ _ _
    · split
      next q _ =>
        rw [(setHold_ring c q n).2.1]
        exact .refl _
      next => exact .refl _

/-- What follows the counting of an event counts no other. -/
theorem spares_behindCount (ev : FaultEvent) :
    (countEvent ev n).flt.Spares k (handleEvent c ev n).flt :=
  (spares_routeEvent hk c (countEvent ev n) ev).trans
    ((spares_reportEvent hk c _ ev).trans (spares_settle hk c _))

theorem spares_handleEvent {ev : FaultEvent} (h : ev.code ≠ k) : n.flt.Spares k (handleEvent c ev n).flt :=
  (spares_count h).trans (spares_behindCount hk c n ev)

theorem counts_handleEvent (ev : FaultEvent) :
    n.flt.Counts k (if ev.code = k then 1 else 0) (handleEvent c ev n).flt := by
  split
  next h => exact (Nat.zero_add 1) ▸ (counts_count h).trans (spares_behindCount hk c n ev).counts
  next h => exact (spares_handleEvent hk c n h).counts

theorem spares_raise {code : FaultCode} (h : code ≠ k) : n.flt.Spares k (raise c code n).flt :=
  (spares_settle hk c n).trans (spares_handleEvent hk c (settle c n) h)

theorem counts_handleAll (x : Node) (ks : List FaultCode) : ∀ m : Node,
    m.flt.Counts k (ks.count k) (handleAll c x ks m).flt := by
  induction ks with
  | nil => exact fun m => .refl _
  | cons j ks ih =>
    intro m
    have hboth := (counts_handleEvent hk c m (eventOf j x)).trans (ih (handleEvent c (eventOf j x) m))
    rw [List.count_cons]
    have hcode : (if (eventOf j x).code = k then 1 else 0) = if (j == k) = true then 1 else 0 := by
      simp only [beq_iff_eq]
      rfl
    rw [← hcode]
    exact hboth

theorem spares_updateOverload (hother : k ≠ .overload) : n.flt.Spares k (updateOverload c n).flt := by
  unfold updateOverload
  split
  next => exact .refl _
  next =>
    split
    next =>
      split
      next => exact spares_raise hk c (n.measured { n.meas with overload := true }) hother.symm
      next => exact .refl _
    next =>
      split
      next => exact spares_clearHold hk c (n.measured { n.meas with overload := false }) .overload
      next => exact .refl _

end Handled

theorem stands_prompt {k : FaultCode} (h : k.stands) : k.prompt ∧ k ≠ .overload := by
  unfold FaultCode.prompt
  obtain rfl | rfl | rfl | rfl := h <;> decide

/-- How often the conditions that stand are counted on a load-on in READY (R179, log 18). -/
theorem counter_loadOn {s : State} (hw : s.settled) (hlen : s.countersWhole) {k : FaultCode} (hk : k.stands) (n : Node)
    (hflt : n.flt = s.node.flt) (ks : List FaultCode) (hmem : k ∈ ks) :
    (finish s.settings (updateOverload s.settings
      (raiseAll s.settings ks (beginThreading s.settings n)))).flt.counter k =
        satAdd (s.node.flt.counter k) (ks.count k) := by
  obtain ⟨hprompt, hother⟩ := stands_prompt hk
  have hbegin : s.node.flt.Spares k (beginThreading s.settings n).flt := by
    rw [beginThreading_eq, ← hflt]
    exact spares_reassembleNow hprompt s.settings (n.runBegun s.settings)
  have hall := ((hbegin.trans (spares_settle hprompt s.settings _)).counts.trans
    (counts_handleAll hprompt s.settings (beginThreading s.settings n) ks _))
  rw [← raiseAll_eq] at hall
  have hwhole := hall.trans ((spares_updateOverload hprompt s.settings _ hother).trans
    (spares_finish hprompt s.settings _)).counts
  obtain ⟨_, _, hcount⟩ := hwhole (none_of_raised_nil hw) hlen
  obtain ⟨i, hi⟩ := Nat.exists_eq_succ_of_ne_zero (List.count_pos_iff.mpr hmem).ne'
  rw [hcount, Nat.zero_add, Nat.add_zero, hi]
  exact iterate_satInc i _

end Sys2Proof.Machine
end

section
/-! SUPPORT. Force samples (R67 to R70, R77, R36, R111, R112, R115 to R118): the load-on in READY, and the obligation. -/

namespace Sys2Proof.Machine

set_option Elab.async false

/-! ## The load-on in READY -/

section LoadOn
variable {c : Settings} {n : Node} {m : Meas} {id : Nat} {r : Schedule}

/-- The node behind a load-on in READY at which the measurement was `m`. -/
def Node.loadedOn (c : Settings) (m : Meas) (n : Node) : Node :=
  updateOverload c (raiseAll c (standingFaults (n.measured m))
    (beginThreading c (n.measured { m with loadOn := true })))

/-- The conditions that stand at a load-on in READY, handled from the run begun. -/
def Node.conditionsTaken (c : Settings) (m : Meas) (ks : List FaultCode) (n : Node) : Node :=
  handleAll c (beginThreading c (n.measured { m with loadOn := true })) ks
    (settle c (beginThreading c (n.measured { m with loadOn := true })))

theorem loadedOn_eq : n.loadedOn c m = updateOverload c (n.conditionsTaken c m (standingFaults (n.measured m))) := by
  rw [Node.loadedOn, raiseAll_eq]
  rfl

/-- The run begun, as the standing conditions find it: only the transmit side is still to be said. -/
theorem begun_rest : ∃ g rg f, settle c (beginThreading c (n.measured { m with loadOn := true })) = { n with
      seq := { n.seq with stand := .threading }
      track := n.track.beginRun c m.exitCount
      meas := { m with loadOn := true, exitPeak := m.exitCount }
      gap := g, ring := rg, flt := f } ∧
    g.gapTrim = n.gap.gapTrim ∧ g.profileTrim = n.gap.profileTrim ∧ g.frozenTrim = n.gap.frozenTrim ∧
    g.frozenProfile = n.gap.frozenProfile := by
  obtain ⟨g, rg, f, hbegin, hsteers⟩ := beginThreading_steers c (n.measured { m with loadOn := true })
  refine ⟨g, (settle c (beginThreading c (n.measured { m with loadOn := true }))).ring,
    (settle c (beginThreading c (n.measured { m with loadOn := true }))).flt, ?_, ?_⟩
  · have hsettle : ∀ u : Node, settle c u = { u with ring := (settle c u).ring, flt := (settle c u).flt } := fun _ => rfl
    exact (hsettle _).trans (congrArg (fun u : Node => ({ u with
      ring := (settle c (beginThreading c (n.measured { m with loadOn := true }))).ring
      flt := (settle c (beginThreading c (n.measured { m with loadOn := true }))).flt } : Node)) hbegin)
  · rw [hsteers]
    exact ⟨rfl, rfl, rfl, rfl⟩

theorem begun_threading : (beginThreading c (n.measured { m with loadOn := true })).seq.stand = .threading := by
  obtain ⟨g, rg, f, hbegin, _⟩ := beginThreading_steers c (n.measured { m with loadOn := true })
  rw [hbegin]
  rfl

/-- What the conditions that hold the stand make of a load-on in READY at which the measurement was `m`. -/
def Node.heldOn (c : Settings) (m : Meas) (r : Schedule) (n t : Node) : Prop :=
  t.seq = { n.seq with
    stand := .threading
    holds := { n.seq.holds with
      ring := n.seq.holds.ring || n.memb.breakRecord ≠ .none
      neighbour := n.seq.holds.neighbour || n.memb.upstream.mark = .lost || n.memb.downstream.mark = .lost }
    holdCount := if n.seq.holds.any then n.seq.holdCount else satInc n.seq.holdCount } ∧
  t.memb = { n.memb with
    graceTimer := if n.memb.breakRecord ≠ .none ∧ n.seq.holds.ring = false then some c.config.ringBreakGrace
      else n.memb.graceTimer } ∧
  t.gap.frozenTrim = (if n.seq.holds.any then n.gap.frozenTrim else n.gap.gapTrim) ∧
  t.gap.frozenProfile = (if n.seq.holds.any then n.gap.frozenProfile else n.gap.profileTrim) ∧
  n.beginsRun m r t

theorem Node.heldOn.finish {t : Node} (h : n.heldOn c m r t) : n.heldOn c m r (finish c t) := h

theorem Node.beginsRun.finish {t : Node} (h : n.beginsRun m r t) : n.beginsRun m r (finish c t) := h

section Level
variable (hclear : m.overload = false) (hwithin : n.loadWithin m.total)
include hclear hwithin

/-- No condition stands: the stand enters THREADING and the run begins. -/
theorem loadedOn_plain (ha : n.sched.active = some (id, r)) (hnone : standingFaults (n.measured m) = []) :
    (n.loadedOn c m).seq = { n.seq with stand := .threading } ∧ n.beginsRun m r (n.loadedOn c m) := by
  obtain ⟨g, rg, f, hrest, _⟩ := begun_rest (c := c) (n := n) (m := m)
  have hover : n.loadedOn c m = settle c (beginThreading c (n.measured { m with loadOn := true })) := by
    rw [loadedOn_eq, hnone]
    refine updateOverload_clear c ?_ (.inr ?_)
    · rw [show n.conditionsTaken c m [] = _ from hrest]
      exact hclear
    · rw [show n.conditionsTaken c m [] = _ from hrest]
      exact hwithin
  rw [hover]
  exact ⟨(congrArg Node.seq hrest).trans rfl, beginThreading_begins c ha⟩

/-- A ring break and lost neighbours stand under the route HOLD: the run begins, and the stand is held. -/
theorem loadedOn_holds (ha : n.sched.active = some (id, r)) (hne : standingFaults (n.measured m) ≠ [])
    (hall : ∀ k ∈ standingFaults (n.measured m), standingTrips c k = false) :
    n.heldOn c m r (n.loadedOn c m) := by
  obtain ⟨g, rg, f, hrest, htrim, hprofile, hfrozen, hfrozenProfile⟩ := begun_rest (c := c) (n := n) (m := m)
  have hlist := standingFaults_hold c hall
  have hsome : (decide (n.memb.breakRecord ≠ .none) ||
      (decide (n.memb.upstream.mark = .lost) || decide (n.memb.downstream.mark = .lost))) = true := by
    by_contra hno
    simp only [Bool.or_eq_true, not_or, Bool.not_eq_true] at hno
    obtain ⟨hb, hu, hd⟩ := hno
    refine hne (hlist.trans ?_)
    rw [show (n.measured m).memb = n.memb from rfl, hb, hu, hd]
    rfl
  obtain ⟨r', f', hheld⟩ := handleAll_holds c (begun_threading (c := c) (n := n) (m := m)) _ hall
    (settle c (beginThreading c (n.measured { m with loadOn := true }))) (by rw [hrest]; rfl)
  rw [hlist, heldBy_standing, show (n.measured m).memb = n.memb from rfl, heldFor_eq c hsome] at hheld
  have htaken : n.conditionsTaken c m (standingFaults (n.measured m)) = _ :=
    (congrArg (fun ks => n.conditionsTaken c m ks) hlist).trans hheld
  have hover : n.loadedOn c m = n.conditionsTaken c m (standingFaults (n.measured m)) := by
    rw [loadedOn_eq]
    refine updateOverload_clear c ?_ (.inr ?_)
    · rw [htaken]
      exact (congrArg (fun u : Node => u.meas.overload) hrest).trans hclear
    · rw [htaken]
      intro id r hactive
      have hsched := congrArg Node.sched hrest
      have hmeas := congrArg (fun u : Node => u.meas.total) hrest
      exact hmeas.le.trans (hwithin id r ((congrArg SchedStore.active hsched).symm.trans hactive))
  rw [hover, htaken]
  have hgap : (settle c (beginThreading c (n.measured { m with loadOn := true }))).gap = g := congrArg Node.gap hrest
  refine ⟨?_, ?_, ?_, ?_, beginThreading_begins c ha⟩
  · rw [hrest, Bool.or_assoc]
  · rw [hrest]
    simp only [decide_eq_true_eq]
  · rw [hrest, ← htrim, ← hfrozen]
    rfl
  · rw [hrest, ← hprofile, ← hfrozenProfile]
    rfl

end Level

end LoadOn

end Sys2Proof.Machine
end

section
/-! SUPPORT. Force samples (R67 to R70, R77, R36, R111, R112, R115 to R118): the load-on in READY that trips, and the
obligation. -/

namespace Sys2Proof.Machine

set_option Elab.async false

/-! ## The load-on in READY that trips (R77, R163, R167) -/

section Trips
variable {c : Settings} {n : Node} {m : Meas}

/-- Hold causes touch the causes, the grace timer and the frozen trims only. -/
theorem heldBy_rest (ks : List FaultCode) : ∀ n : Node, ∃ h i g t, n.heldBy c ks = { n with
    seq := { n.seq with holds := h, holdCount := i }, gap := g, memb := { n.memb with graceTimer := t } } := by
  induction ks with
  | nil => exact fun n => ⟨n.seq.holds, n.seq.holdCount, n.gap, n.memb.graceTimer, rfl⟩
  | cons k ks ih =>
    intro n
    obtain ⟨h, i, g, t, hrest⟩ := ih (n.holding c k.standingCause)
    exact ⟨h, i, g, t, hrest⟩

/-- The first condition that trips trips the stand, and the further ones are local repeats. -/
theorem conditionsTaken_trips (hu : n.untripped) {ks pre post : List FaultCode} {k : FaultCode}
    (hks : ks = pre ++ k :: post) (hstands : ∀ j ∈ ks, j.stands) (hpre : ∀ j ∈ pre, standingTrips c j = false)
    (hk : standingTrips c k = true) : ∃ (y z : Node) (r : RingPort) (f : FaultUnit),
      y.meas = { m with loadOn := true, exitPeak := m.exitCount } ∧
      y.trip = n.trip ∧ y.track = n.track.beginRun c m.exitCount ∧ y.tripsOn c 2 (byte k.number) z ∧
      n.conditionsTaken c m ks = { z with
        trip := { z.trip with localRepeats := satInc^[post.countP (standingTrips c)] z.trip.localRepeats }
        ring := r, flt := f } := by
  obtain ⟨_, _, hactive, hpending⟩ := hu
  obtain ⟨g, rg, f, hrest, _⟩ := begun_rest (c := c) (n := n) (m := m)
  have hthread := begun_threading (c := c) (n := n) (m := m)
  obtain ⟨r', f', hheld⟩ := handleAll_holds c hthread pre hpre
    (settle c (beginThreading c (n.measured { m with loadOn := true }))) (by rw [hrest]; rfl)
  obtain ⟨h, i, g', q, hby⟩ := heldBy_rest (c := c) pre
    (settle c (beginThreading c (n.measured { m with loadOn := true })))
  rw [hby, hrest] at hheld
  have hy : ∀ y, handleAll c (beginThreading c (n.measured { m with loadOn := true })) pre
      (settle c (beginThreading c (n.measured { m with loadOn := true }))) = y → y.untripped ∧
      y.meas = { m with loadOn := true, exitPeak := m.exitCount } ∧ y.trip = n.trip ∧
      y.track = n.track.beginRun c m.exitCount := by
    rintro y rfl
    rw [hrest, hheld]
    exact ⟨⟨StandState.noConfusion, rfl, hactive, hpending⟩, rfl, rfl, rfl⟩
  obtain ⟨hyu, hym, hyt, hyk⟩ := hy _ rfl
  have htrips := handleEvent_trips c hthread (hstands k (by rw [hks]; simp)) hk hyu
  have hstand := htrips
  obtain ⟨⟨hseq, _⟩, htrip, _⟩ := hstand
  obtain ⟨r'', f'', hrepeats⟩ := handleAll_repeats c hthread post
    (fun j hj => hstands j (by rw [hks]; exact List.mem_append_right _ (List.mem_cons_of_mem _ hj))) _
    (by rw [hseq]) (by rw [htrip]; simp [TripUnit.recorded, holdsStation])
  refine ⟨_, _, r'', f'', hym, hyt, hyk, htrips, ?_⟩
  unfold Node.conditionsTaken
  rw [hks, handleAll_append]
  exact hrepeats

/-- What a condition that trips makes of a load-on in READY at which the measurement was `m`: the run is over as it
begins (R167). -/
def Node.trippedOn (c : Settings) (m : Meas) (k : FaultCode) (count : Nat) (n t : Node) : Prop :=
  t.seq.stand = .tripped ∧ t.seq.holds = Holds.empty ∧
  t.trip = { n.trip with
    active := some { station := c.station, standIndex := c.config.standIndex, causeKind := 2
                     detail := byte k.number, number := n.track.nextNumber }
    tripEntries := satInc n.trip.tripEntries
    localRepeats := if count = 1 then n.trip.localRepeats else satAdd n.trip.localRepeats (count - 1) } ∧
  t.gap.base = some c.config.retractGap ∧ t.gap.reference = c.config.retractGap ∧
  t.gap.supervision = .retracting ∧ t.track.openSeg = none ∧ t.track.running = false ∧ t.track.exitTrack = [] ∧
  t.track.arrival = [] ∧
  t.meas = { m with
    loadOn := true, exitPeak := m.exitCount, fifo := [], hold := false, overload := false, reversal := none
    flushedSamples := satAdd m.flushedSamples m.fifo.length }

theorem Node.trippedOn.finish {k : FaultCode} {count : Nat} {t : Node} (h : n.trippedOn c m k count t) :
    n.trippedOn c m k count (finish c t) := h

theorem loadedOn_trips (hu : n.untripped) {k : FaultCode}
    (hk : (standingFaults (n.measured m)).find? (standingTrips c) = some k) :
    n.trippedOn c m k ((standingFaults (n.measured m)).countP (standingTrips c)) (n.loadedOn c m) := by
  set count := (standingFaults (n.measured m)).countP (standingTrips c) with hdef
  obtain ⟨htrips, pre, post, hks, hpre⟩ := List.find?_eq_some_iff_append.mp hk
  have hpre' : ∀ j ∈ pre, standingTrips c j = false := fun j hj => by simpa using hpre j hj
  obtain ⟨y, z, r, f, hmeas, htrip, htrack, hz, htaken⟩ := conditionsTaken_trips (c := c) (m := m) hu hks
    (standingFaults_stand _) hpre' htrips
  obtain ⟨⟨hzs, _, _, hzm, hzk, _, hzg⟩, hzt, _⟩ := hz
  have hover : n.loadedOn c m = n.conditionsTaken c m (standingFaults (n.measured m)) := by
    rw [loadedOn_eq]
    refine updateOverload_clear c ?_ (.inl ?_)
    · rw [htaken]
      exact (congrArg Meas.overload hzm).trans rfl
    · rw [htaken]
      exact (congrArg (fun q : Sequencer => q.stand.strip) hzs).trans rfl
  have hcount : count = post.countP (standingTrips c) + 1 := by
    have hnone : pre.countP (standingTrips c) = 0 := List.countP_eq_zero.mpr fun j hj => by
      rw [hpre' j hj]
      exact Bool.false_ne_true
    rw [hdef, hks, List.countP_append, hnone, List.countP_cons_of_pos htrips, Nat.zero_add]
  have hrepeats : satInc^[post.countP (standingTrips c)] n.trip.localRepeats =
      if count = 1 then n.trip.localRepeats else satAdd n.trip.localRepeats (count - 1) := by
    rw [hcount, Nat.add_sub_cancel]
    cases post.countP (standingTrips c) with
    | zero => rfl
    | succ i => exact (iterate_satInc i _).trans (if_neg (by omega)).symm
  rw [hover, htaken]
  refine ⟨congrArg Sequencer.stand hzs, congrArg Sequencer.holds hzs, ?_, congrArg GapControl.base hzg,
    congrArg GapControl.reference hzg, congrArg GapControl.supervision hzg, congrArg Tracking.openSeg hzk,
    congrArg Tracking.running hzk, congrArg Tracking.exitTrack hzk, congrArg Tracking.arrival hzk, ?_⟩
  · rw [← hrepeats]
    dsimp only
    rw [hzt, htrip, htrack, beginRun_eq]
    rfl
  · refine hzm.trans ?_
    rw [hmeas]

end Trips

end Sys2Proof.Machine
end

section
/-! SUPPORT. Force samples (R67 to R70, R77, R36, R111, R112, R115 to R118): the obligation. -/

namespace Sys2Proof.Machine

set_option Elab.async false

theorem forced_exitCount (c : NodeConfig) (side : Side) (force : Nat) (m : Meas) :
    (m.forced c side force).exitCount = m.exitCount := by cases side <;> rfl

/-- A load that has come on or gone off unexpectedly trips the stand (R111, R115). -/
theorem unexpectedLoad_trips {s : State} (m : Meas) (hu : s.node.untripped) : s.tripsByFault .unexpectedLoad
    (s.node.measured m) (s.withNode (finish s.settings (updateOverload s.settings
      (raise s.settings .unexpectedLoad (s.node.measured m))))) := by
  rw [updateOverload_tripped s.settings
    (raise_tripsOn s.settings (s.node.measured m) .unexpectedLoad (by exact hu) (.inl rfl))]
  exact tripsByFault_raise hu (.inl rfl) rfl rfl

/-- The second half of O54: a force sample marked invalid. -/
theorem forceSensor_acts (side : Side) (force : Nat) (s : State) (hl : s.live) :
    let v := s.node.meas.force side
    let marked := { s.node with meas := s.node.meas.putForce side { v with valid := false } }
    ∃ t, exec (.forceSample side false force) s = .next t ∧
      (v.valid = false → s.keepsBut [.ring, .flt] t ∧ s.offers [] t) ∧
      (v.valid = true → s.node.seq.stand.strip = false →
        t.node.meas = marked.meas ∧ s.keepsBut [.meas, .ring, .flt] t ∧
        s.reports .forceSensor s.node t) ∧
      (v.valid = true → s.node.seq.stand.strip = true → s.node.untripped →
        s.tripsByFault .forceSensor marked t) := by
  intro v marked
  refine ⟨_, exec_forceSample hl side false force, fun hv => ?_, fun hv hs => ?_, fun hv hs hu => ?_⟩
  · rw [if_neg Bool.false_ne_true, forceInvalid_stays s.settings hv]
    exact acted_quietly (Node.keepsBut_of_overlay rfl)
  · rw [if_neg Bool.false_ne_true, forceInvalid_raises s.settings hv]
    have hidle := cls_forceSensor_idle hs
    obtain ⟨r, f, hraise⟩ := raise_correctable_rest s.settings (s.node.unforced side) (code := .forceSensor) hidle
    exact ⟨(congrArg Node.meas hraise).trans rfl,
      keepsBut_raise (Node.keepsBut_of_overlay rfl) (by decide) (by decide) hidle,
      reports_raise hidle rfl rfl rfl rfl rfl⟩
  · rw [if_neg Bool.false_ne_true, forceInvalid_raises s.settings hv]
    exact tripsByFault_raise (m := marked) hu (.inl (cls_forceSensor_strip hs)) rfl rfl

/-- Records that are published have frames. -/
theorem publication_nil {c : NodeConfig} {onTime : Bool} {rem : ExitRecord → Nat} {xs : List ExitRecord}
    (h : publication c onTime rem xs = []) : xs = [] := by
  cases xs with
  | nil => rfl
  | cons x xs => exact nomatch (h : _ :: _ = [])

/-- What a load-off in TAILING comes to. -/
theorem loadOff_tailing {s : State} {m : Meas} (hs : s.node.seq.stand = .tailing)
    (hcount : m.exitCount = s.node.meas.exitCount) (hload : m.loadOn = false) :
    let n := s.node
    let c := s.settings.config
    let t := s.runEnded m
    t.node.seq = { n.seq with stand := .quiet, holds := Holds.empty } ∧
      t.node.track.openSeg = none ∧ t.node.track.running = false ∧ t.node.track.exitTrack = [] ∧
      t.node.track.arrival = [] ∧ t.node.track.weldList = [] ∧
      t.node.gap.base = some c.standbyGap ∧ t.node.gap.reference = c.standbyGap ∧
      t.node.meas.loadOn = false ∧ t.node.meas.fifo = [] ∧
      ∀ g, n.track.openSeg = some g → ∀ id r, n.sched.active = some (id, r) →
      ∃ y, g.closedAs c id r true y ∧
        let all := n.track.exitTrack ++ [y]
        let due (x : ExitRecord) : Bool := reaches n.meas.exitCount x.due
        let onTime := if due y then all.takeWhile due else []
        let remaining := remainingAt c n.meas.exitCount
        let frames := publication c true remaining onTime ++
          publication c false remaining (all.drop onTime.length)
        t.node.track.lastClosed = g.number ∧ t.node.track.nextNumber = n.track.nextNumber ∧
        t.node.track.counts.closed = satInc n.track.counts.closed ∧
        t.node.track.counts.published = satAdd n.track.counts.published all.length ∧
        (n.track.exitTrack.length < 48 →
          (n.memb.ring.admits .seg = true → s.offers frames t ∧
            (s.roomFor frames.length →
              t.node.track.counts.publishRefused = n.track.counts.publishRefused)) ∧
          (n.memb.ring.admits .seg = false → s.offers [] t ∧
            t.node.track.counts.publishRefused =
              satAdd n.track.counts.publishRefused frames.length)) := by
  intro n c t
  obtain ⟨hseg, hrunning, hexit, harrival, hwelds⟩ := runEnded_empties (m := m) hs
  obtain ⟨hbase, href⟩ := runEnded_gap (m := m) hs
  have hmeas := runEnded_meas (m := m) hs
  refine ⟨runEnded_seq hs, hseg, hrunning, hexit, harrival, hwelds, hbase, href,
    (congrArg Meas.loadOn hmeas).trans hload, (congrArg Meas.fifo hmeas).trans rfl, fun g hg id r ha => ?_⟩
  refine ⟨closeRecord s.settings true id r g, closeRecord_closedAs s.settings true id r g, ?_⟩
  intro all due onTime remaining frames
  obtain ⟨hlast, hnext, hclosed, hpublished⟩ := runEnded_counts (m := m) hs hg ha
  have hlen : all.length = n.track.exitTrack.length + 1 := List.length_append
  refine ⟨hlast, hnext, hclosed, by rw [hlen]; exact hpublished, fun hroom => ?_⟩
  have hpublishes := runEnded_publishes (m := m) hs hg ha hroom
  rw [hcount] at hpublishes
  obtain ⟨hadmitted, hrefused⟩ := hpublishes
  refine ⟨hadmitted, fun hno => ?_⟩
  obtain ⟨hoffers, hcounts⟩ := hrefused hno
  have hfull : frames ≠ [] := fun hnil => by
    obtain ⟨hfirst, hlater⟩ := List.append_eq_nil_iff.mp hnil
    have hall := publication_nil hlater
    rw [publication_nil hfirst] at hall
    exact List.append_ne_nil_of_right_ne_nil _ (List.cons_ne_nil _ _) hall
  obtain ⟨i, hi⟩ := Nat.exists_eq_succ_of_ne_zero (List.length_pos_iff.mpr hfull).ne'
  refine ⟨hoffers, hcounts.trans ?_⟩
  rw [show frames.length = i + 1 from hi]
  exact iterate_satInc i _

/-- Settles O54, by what the load does, and then by the overload mark. -/
theorem forceSampleIsJudged : Obligations.ForceSampleIsJudged := by
  unfold Obligations.ForceSampleIsJudged
  refine ⟨fun side force s hl hs => ?_, forceSensor_acts⟩
  intro n c m1 total m on off within standing trips begun
  have hvalid : forceValid s.settings side force n = updateOverload s.settings
      (updateLoad s.settings (n.measured m)) := forceValid_eq s.settings hs
  have hlevel (hon : ¬ on) (hoff : ¬ off) : updateLoad s.settings (n.measured m) = n.measured m :=
    updateLoad_rest s.settings hs hon hoff
  have hloaded (hon : on) : updateLoad s.settings (n.measured m) =
      loadOnEvent s.settings (n.measured { m with loadOn := true }) := updateLoad_on s.settings hs hon
  have hunloaded (hoff : off) : updateLoad s.settings (n.measured m) =
      loadOffEvent s.settings (n.measured { m with loadOn := false }) := updateLoad_off s.settings hs hoff
  have hcount : m.exitCount = n.meas.exitCount := forced_exitCount c side force n.meas
  refine ⟨_, exec_forceSample hl side true force, rfl, rfl, rfl, ?_⟩
  rw [if_pos rfl, hvalid]
  refine ⟨?_, ?_, ?_, ?_, ?_, ?_, ?_⟩
  · intro hon hoff hclear hwithin
    rw [hlevel hon hoff, updateOverload_clear s.settings hclear hwithin]
    exact ⟨rfl, acted_quietly (Node.keepsBut_of_overlay rfl)⟩
  · intro hon hready hclear hwithin id r ha
    have ht : updateOverload s.settings (updateLoad s.settings (n.measured m)) = n.loadedOn s.settings m := by
      rw [hloaded hon, loadOnEvent_ready s.settings (by exact hready), standingFaults_begin]
      rfl
    have hplain := loadedOn_plain (c := s.settings) (n := n) hclear hwithin ha
    have hholds := loadedOn_holds (c := s.settings) (n := n) hclear hwithin ha
    have htrips (hu : n.untripped) (k : FaultCode) := loadedOn_trips (c := s.settings) (m := m) hu (k := k)
    have hcounts (hw : s.settled) (hlen : s.countersWhole) (k : FaultCode) (hk : k ∈ standing) :
        (finish s.settings (n.loadedOn s.settings m)).flt.counter k =
          satAdd (n.flt.counter k) (standing.count k) :=
      counter_loadOn hw hlen (standingFaults_stand (n.measured m) k hk) (n.measured { m with loadOn := true }) rfl
        standing hk
    rw [ht]
    generalize n.loadedOn s.settings m = u at hplain hholds htrips hcounts ⊢
    refine ⟨fun hnone => ?_, fun hne hall => ?_, fun hu k hk => (htrips hu k hk).finish, hcounts⟩
    · obtain ⟨hseq, hbegins⟩ := hplain hnone
      exact ⟨hseq, hbegins.finish⟩
    · exact (hholds hne fun k hk => Bool.eq_false_iff.mpr (List.any_eq_false.mp hall k hk)).finish
  · intro hon hidle hu
    rw [hloaded hon, loadOnEvent_unexpected s.settings (by exact hidle)]
    exact unexpectedLoad_trips _ hu
  · intro hoff hstrip hu
    rw [hunloaded hoff, loadOffEvent_unexpected s.settings (by exact hstrip)]
    exact unexpectedLoad_trips _ hu
  · intro hoff htail
    obtain ⟨hseq, hmeas, _⟩ := tailing_quiets s.settings (n := n.measured { m with loadOn := false }) htail
    rw [hunloaded hoff, loadOffEvent_tailing s.settings (by exact htail), updateOverload_clear s.settings
      ((congrArg Meas.overload hmeas).trans rfl) (.inl ((congrArg (fun q : Sequencer => q.stand.strip) hseq).trans rfl))]
    exact loadOff_tailing htail hcount rfl
  · intro hon hoff hclear hstrip id r ha hover
    rw [hlevel hon hoff, updateOverload_sets s.settings (n := n.measured m) hclear hstrip ha hover]
    exact ⟨fun hroute => overload_holds hroute hstrip,
      fun hroute hu =>
        tripsByFault_raise (m := n.measured { m with overload := true }) hu (.inr ⟨rfl, hroute⟩) rfl rfl⟩
  · intro hon hoff hset id r ha hunder
    rw [hlevel hon hoff, updateOverload_ends s.settings (n := n.measured m) hset ha hunder]
    exact overload_ends

end Sys2Proof.Machine
end
